-- ==== Sys2Proof/Word.lean ====
section
/-! DEFINITION. The value widths of the block: a lane, the two 64-bit data ports, and the command word
(spec/00_scope.md R10). -/

namespace Sys2Proof

/-- A lane of the bank, a binary32 pattern, or the word SEXT works on (R10: 32 bits). -/
abbrev Word := BitVec 32

/-- The DIN and DOUT ports, or a binary64 pattern (R10, R60: 64 bits). -/
abbrev DWord := BitVec 64

/-- A command word (R10, R61: 16 bits). -/
abbrev CmdWord := BitVec 16

/-- `ONES_32` of R12: the 32-bit value with every bit 1. -/
abbrev ones32 : Word := BitVec.allOnes 32

end Sys2Proof
end

