-- ==== Sys2Proof/Syntax.lean ====
section
/-! DEFINITION. The six commands of the block (spec/30_encoding.md R62), one constructor per row of
spec/opcode_table.json. The operands are the unsigned fields W and IDX read as natural numbers
(R63, R64: zero-extended, never scaled or biased); WellFormed.lean says which numbers fit their
fields. Data operands are not part of a command: they come from DIN (R75). -/

namespace Sys2Proof

/-- A decoded command. -/
inductive Instr where
  /-- SEXT: sign-extend the `w`-bit field of DIN[31:0] (R82). -/
  | sext (w : Nat)
  /-- LDD: load double register `i` (R102). -/
  | ldd (i : Nat)
  /-- SVD: save DIN to double register `i` (R104). -/
  | svd (i : Nat)
  /-- LDF: load float register `i` (R112). -/
  | ldf (i : Nat)
  /-- SVF: save DIN[31:0] to float register `i` (R114). -/
  | svf (i : Nat)
  /-- ISNAN: is the binary64 pattern on DIN a NaN (R131)? -/
  | isnan
  deriving DecidableEq, Repr

end Sys2Proof
end

