-- ==== Sys2Proof/WellFormed.lean ====
section
/-! DEFINITION. Which commands have a command word: the operand fits its field. W is 6 bits (0 to 63,
spec/30_encoding.md R64) and IDX is 7 bits (0 to 127, R63); an assembler refuses anything larger (R72).
Whether a width is legal and whether a lane exists are NOT checked here: they are checked when the
command executes (R69). -/

namespace Sys2Proof

/-- The operand fits its field of the command word (R63, R64, R72). -/
def Instr.wellFormed : Instr → Bool
  | .sext w => decide (w ≤ 63)
  | .ldd i => decide (i ≤ 127)
  | .svd i => decide (i ≤ 127)
  | .ldf i => decide (i ≤ 127)
  | .svf i => decide (i ≤ 127)
  | .isnan => true

/-- `wellFormed` as a proposition. -/
abbrev Instr.WellFormed (i : Instr) : Prop := i.wellFormed = true

end Sys2Proof
end

