-- ==== Sys2Proof/Decode.lean ====
section
/-! DEFINITION. The decoder and the encoder of command words (spec/30_encoding.md R61 to R71). The block
fetches no bytes: a command word arrives whole on the 16-bit CMD port (R58, R71), so the decoder
reads a 16-bit word. -/

namespace Sys2Proof

/-- Why a word decodes to no command; both are the spec's `IllegalCommand` (R143). -/
inductive DecodeReject where
  /-- OP = 110 or OP = 111 (R68). -/
  | reservedOperation
  /-- A reserved W or IDX field is not 0 (R67). -/
  | reservedField
  deriving DecidableEq, Repr

/-- `OP = CMD[2:0]` (R61). -/
def opField (c : CmdWord) : BitVec 3 := c.extractLsb' 0 3

/-- `W = CMD[8:3]` (R61). -/
def widthField (c : CmdWord) : BitVec 6 := c.extractLsb' 3 6

/-- `IDX = CMD[15:9]` (R61). -/
def indexField (c : CmdWord) : BitVec 7 := c.extractLsb' 9 7

/-- Accept `i` if the word's reserved fields are 0 (R67). -/
def acceptIf (reservedZero : Bool) (i : Instr) : Except DecodeReject Instr :=
  if reservedZero then .ok i else .error .reservedField

/-- The decoder, total on all 65536 words (R69). -/
def decode (c : CmdWord) : Except DecodeReject Instr :=
  let w := widthField c
  let i := indexField c
  match (opField c).toNat with
  | 0 => acceptIf (i == 0) (.sext w.toNat)
  | 1 => acceptIf (w == 0) (.ldd i.toNat)
  | 2 => acceptIf (w == 0) (.svd i.toNat)
  | 3 => acceptIf (w == 0) (.ldf i.toNat)
  | 4 => acceptIf (w == 0) (.svf i.toNat)
  | 5 => acceptIf (w == 0 && i == 0) .isnan
  | _ => .error .reservedOperation

/-- The command word with these fields: IDX in bits 15:9, W in bits 8:3, OP in bits 2:0 (R61). -/
def cmdWord (op : BitVec 3) (w i : Nat) : CmdWord := BitVec.ofNat 7 i ++ BitVec.ofNat 6 w ++ op

/-- The command word of a command (R61, R62; unused fields are 0, R67). -/
def encode : Instr → CmdWord
  | .sext w => cmdWord 0#3 w 0
  | .ldd i => cmdWord 1#3 0 i
  | .svd i => cmdWord 2#3 0 i
  | .ldf i => cmdWord 3#3 0 i
  | .svf i => cmdWord 4#3 0 i
  | .isnan => cmdWord 5#3 0 0

/-- The command that the decoder reads from an instruction of the opcode table whose bits are `w`. Every row
is one 16-bit word (R71); bits that do not fit in it, or a longer row, are refused (log entry 14). -/
def decodeTableWord (nbits w : Nat) : Option Instr :=
  if nbits ≤ 16 && decide (w < 2 ^ 16) then (decode (BitVec.ofNat 16 w)).toOption else none

end Sys2Proof
end

