-- ==== Sys2Proof/Config.lean ====
section
/-! DEFINITION. What an implementation fixes, and the model's one free value. NLANES itself is not a
constant here: it is the length of the bank, so that every statement quantifies over it
(spec/92_eei_decisions.md D7). -/

namespace Sys2Proof.Config

/-- The least NLANES (spec/00_scope.md R10). -/
def minLanes : Nat := 1

/-- The greatest NLANES: the most lanes a 7-bit index can reach (R10, D7). -/
def maxLanes : Nat := 256

/-- The NLANES that `State.reset` takes. DESIGN CHOICE (log entry 4; unsafe): the spec leaves NLANES open. -/
def resetLanes : Nat := 256

/-- The value every lane holds at `State.reset`. DESIGN CHOICE (log entry 5; unsafe): the spec leaves the
launch contents RBF_INIT open (D11). -/
def resetLane : Word := 0

/-- What the hardware drives on DOUT after a faulting command: the spec says "the hardware may drive any
value" (spec/60_exceptions.md R141). FREE VALUE, DESIGN CHOICE of form (log entry 3; safe): it has no body, so
nothing can be proved of it. The argument is the counter `State.freeCount`. -/
opaque freeDout : Nat → DWord

end Sys2Proof.Config
end

