-- ==== Sys2Proof/Machine/State.lean ====
section
/-! DEFINITION. The state of the block as plain data (spec/10_state.md R20, R34, R35), the inputs of a
run (spec/70_reset_and_hazards.md R162), and the reasons a step can stop (spec/60_exceptions.md R142). -/

namespace Sys2Proof.Machine

/-- A lane cell: a 32-bit value, or no value. Holding no value is the spec's own state of a lane (R27). -/
abbrev LaneCell := Option Word

/-- The register bank RBF: lane `l` is entry `l`, and NLANES is the length (R25, R34; log entry 4). -/
abbrev Bank := List LaneCell

/-- NLANES is in its range (R10: 1 ≤ NLANES ≤ 256). -/
def Bank.wf (b : Bank) : Bool :=
  decide (Config.minLanes ≤ b.length) && decide (b.length ≤ Config.maxLanes)

/-- The values on the block's input ports at a rising edge of CLK (R60). -/
structure Ports where
  /-- `RST_N`, active-low reset. -/
  rstN : Bool
  /-- `REQ`: CMD and DIN hold a command this cycle. -/
  req : Bool
  /-- `CMD`, the command word. -/
  cmd : CmdWord
  /-- `DIN`, the data operand. -/
  din : DWord
  deriving DecidableEq, Repr

/-- One step of a run, as its caller supplies it (R162): a rising edge with its port values, or an access of
the bank's owner between commands (R47). -/
inductive Event where
  /-- A rising edge of CLK (R167, R160). -/
  | edge (p : Ports)
  /-- `HostRead(l)` (R47). -/
  | hostRead (l : Nat)
  /-- `HostWrite(l, v)` (R47). -/
  | hostWrite (l : Nat) (v : Word)
  deriving DecidableEq, Repr

/-- One entry of a run's observation (R162). -/
inductive Observation where
  /-- The DOUT of a command. -/
  | dout (v : DWord)
  /-- The value that a HostRead of lane `l` returned. -/
  | lane (l : Nat) (v : Word)
  deriving DecidableEq, Repr

/-- A fault reason with its recorded value (R142). -/
inductive FaultReason where
  /-- The command word decodes to no command (R143). -/
  | illegalCommand (word : CmdWord)
  /-- SEXT with a width of 0 or above 32 (R144). -/
  | badWidth (w : Nat)
  /-- A lane that does not exist (R145). -/
  | badIndex (l : Nat)
  /-- A read of a lane that holds no value (R146). -/
  | unwrittenLane (l : Nat)
  deriving DecidableEq, Repr

/-- The fault mark: the reason, and the command word that raised it (R141); an owner access has no command
word (log entry 10). -/
structure FaultMark where
  /-- Reason and recorded value (R142). -/
  reason : FaultReason
  /-- The command word that raised it, if a command did. -/
  cmd : Option CmdWord
  deriving DecidableEq, Repr

/-- The whole state. -/
structure State where
  /-- The register bank RBF (R25, R34). -/
  rbf : Bank
  /-- The output register DOUT (R167). -/
  dout : DWord
  /-- The fault mark, `none` until a command faults (R34, R141). -/
  faultMark : Option FaultMark
  /-- The input ports as sampled at the latest rising edge (R60; the model's own field, log entry 6). -/
  ports : Ports
  /-- The steps of the run that are still to come, the next one first (R162; the model's own field, log entry 6). -/
  inputs : List Event
  /-- The run's observation so far, oldest first (R162; the model's own field, log entry 9). -/
  observed : List Observation
  /-- Which free value DOUT takes after the next faulting command (the model's own field, log entry 3). -/
  freeCount : Nat
  deriving DecidableEq, Repr

/-- Why the machine stops. A fault of a command or an owner access carries the state it leaves (R141). -/
inductive Fault where
  /-- R143. Raised at an edge with a request whose word decodes to no command. Safe: the model gives no value
  where the spec leaves the hardware unspecified. -/
  | illegalCommand (word : CmdWord) (after : State)
  /-- R144. Raised by SEXT with width 0 or above 32. Safe: the spec's checked precondition. -/
  | badWidth (w : Nat) (after : State)
  /-- R145. Raised by LDD, SVD, LDF, SVF, HostRead and HostWrite for a lane that does not exist. Safe. -/
  | badIndex (l : Nat) (after : State)
  /-- R146. Raised by LDD, LDF and HostRead for a lane that holds no value. Safe. -/
  | unwrittenLane (l : Nat) (after : State)
  /-- R141. Raised by a step from a state that already holds a fault mark: nothing has a step after a fault.
  Safe: the run has ended. -/
  | noStepAfterFault (mark : FaultMark) (after : State)
  deriving DecidableEq, Repr

/-- Why a step has no meaning. -/
inductive Refusal where
  /-- The instruction has no meaning yet; raised by no arm of `exec` in this model. Safe. -/
  | notModelled (mnemonic : String)
  deriving DecidableEq, Repr

/-- The ports before the first edge. DESIGN CHOICE (log entry 12): no reset, no request, zeros. -/
def Ports.quiet : Ports := { rstN := true, req := false, cmd := 0, din := 0 }

/-- A launch (R162, R35): the bank with its contents RBF_INIT, a step sequence, no fault recorded, DOUT 0. -/
def State.launch (bank : Bank) (events : List Event) : State :=
  { rbf := bank, dout := 0, faultMark := none, ports := Ports.quiet, inputs := events, observed := [],
    freeCount := 0 }

/-- The machine right after reset: a launch with no steps placed. NLANES and RBF_INIT are open in the spec;
here every one of 256 lanes holds 0 (DESIGN CHOICE, log entries 4 and 5; unsafe). -/
def State.reset : State :=
  State.launch (List.replicate Config.resetLanes (some Config.resetLane)) []

end Sys2Proof.Machine
end

