-- ==== Sys2Proof/Machine/Ops.lean ====
section
/-! DEFINITION. The named operations over the bank, DOUT and the fault mark (spec/00_scope.md R14, R15;
spec/20_memory.md R41, R42; spec/60_exceptions.md R141). The block takes no exception and returns from none (R149,
R150); ending a command with a model fault (`raise`) is the one shared operation in their place. -/

namespace Sys2Proof.Machine

/-- What a step or a meaning answers. -/
abbrev Result := Host.Outcome State Fault Refusal

/-- Lane `l` does not exist: `l >= NLANES`, where NLANES is the length of the bank (R25, R41). -/
def laneMissing (l : Nat) (s : State) : Bool := (s.rbf[l]?).isNone

/-- `LaneRead(l)` (R41). -/
def laneRead (l : Nat) (s : State) : Except FaultReason Word :=
  if laneMissing l s then .error (.badIndex l)
  else
    match s.rbf.getD l none with
    | none => .error (.unwrittenLane l)
    | some v => .ok v

/-- Lane `l` now holds `v`; no other lane changes (R42, R50). -/
def setLane (l : Nat) (v : Word) (s : State) : State := { s with rbf := s.rbf.set l (some v) }

/-- `LaneWrite(l, v)` (R42). -/
def laneWrite (l : Nat) (v : Word) (s : State) : Except FaultReason State :=
  if laneMissing l s then .error (.badIndex l) else .ok (setLane l v s)

/-- `DOUT <- v` by a command: DOUT holds the result, and the run observes it (R15, R162, R167). -/
def driveDout (v : DWord) (s : State) : State :=
  { s with dout := v, observed := s.observed ++ [.dout v] }

/-- DOUT becomes 0 at an edge that takes no command (R160, R167); no command's DOUT is observed. -/
def clearDout (s : State) : State := { s with dout := 0 }

/-- The run observes the value that a HostRead of lane `l` returned (R162). -/
def observeLane (l : Nat) (v : Word) (s : State) : State :=
  { s with observed := s.observed ++ [.lane l v] }

/-- The state a faulting command leaves (R141): the lanes as they were, DOUT unspecified (a free value, log
entry 3), the fault mark set to the reason and the command word. -/
def afterCommandFault (r : FaultReason) (s : State) : State :=
  { s with
    faultMark := some { reason := r, cmd := some s.ports.cmd }
    dout := Config.freeDout s.freeCount
    freeCount := s.freeCount + 1 }

/-- The state a faulting owner access leaves: the fault mark set, with no command word, and nothing else
changed (R47, R141; log entry 10). -/
def afterOwnerFault (r : FaultReason) (s : State) : State :=
  { s with faultMark := some { reason := r, cmd := none } }

/-- The fault outcome of a reason (R142). -/
def toFault (r : FaultReason) (after : State) : Fault :=
  match r with
  | .illegalCommand c => .illegalCommand c after
  | .badWidth w => .badWidth w after
  | .badIndex l => .badIndex l after
  | .unwrittenLane l => .unwrittenLane l after

/-- `raise Fault(reason)` in a command (R15, R141). -/
def raise (r : FaultReason) (s : State) : Result := .fault (toFault r (afterCommandFault r s))

/-- The model fault of an owner access (R47). -/
def raiseOwner (r : FaultReason) (s : State) : Result := .fault (toFault r (afterOwnerFault r s))

/-- A command's outcome: its next state, or the fault raised from the state BEFORE the command, so that a
faulting command writes no lane (R43, R141). -/
def finishCommand (s : State) (e : Except FaultReason State) : Result :=
  match e with
  | .ok t => .next t
  | .error r => raise r s

/-- An owner access's outcome (R47). -/
def finishOwner (s : State) (e : Except FaultReason State) : Result :=
  match e with
  | .ok t => .next t
  | .error r => raiseOwner r s

/-- The state in which a fault stopped the machine. -/
def faultState : Fault → State
  | .illegalCommand _ t => t
  | .badWidth _ t => t
  | .badIndex _ t => t
  | .unwrittenLane _ t => t
  | .noStepAfterFault _ t => t

/-- The code of a fault reason (R142: the spec's numbering for a model's fault record). -/
def faultCode : FaultReason → Nat
  | .illegalCommand _ => 1
  | .badWidth _ => 2
  | .badIndex _ => 3
  | .unwrittenLane _ => 4

/-- The value recorded with a fault reason, as a number (R142). -/
def faultValue : FaultReason → Nat
  | .illegalCommand c => c.toNat
  | .badWidth w => w
  | .badIndex l => l
  | .unwrittenLane l => l

end Sys2Proof.Machine
end

