-- ==== Sys2Proof/Machine/Operands.lean ====
section
/-! DEFINITION. Every operand form: what a command reads from DIN (spec/30_encoding.md R65), what it puts
into DOUT (R66), and the double and float views of the bank (spec/10_state.md R28, R29; spec/20_memory.md R43, R44). -/

namespace Sys2Proof.Machine

/-- Bits 31:0 of a 64-bit value. -/
def lowHalf (d : DWord) : Word := d.extractLsb' 0 32

/-- Bits 63:32 of a 64-bit value. -/
def highHalf (d : DWord) : Word := d.extractLsb' 32 32

/-- `hi ++ lo`: `hi` in bits 63:32, `lo` in bits 31:0 (R12). -/
def joinHalves (hi lo : Word) : DWord := hi ++ lo

/-- `zext_64(v)` (R13). -/
def zext64 (v : Word) : DWord := v.setWidth 64

/-- The 32-bit data operand: `DIN[31:0]`; `DIN[63:32]` is ignored (R65: SEXT, SVF). -/
def dinWord (s : State) : Word := lowHalf s.ports.din

/-- The 64-bit data operand: `DIN[63:0]` (R65: SVD, ISNAN). -/
def dinDouble (s : State) : DWord := s.ports.din

/-- The lane of the low half of double register `i` (R28; no wrap, R63). -/
def lowLane (i : Nat) : Nat := 2 * i

/-- The lane of the high half of double register `i` (R28; no wrap, R63). -/
def highLane (i : Nat) : Nat := 2 * i + 1

/-- Read double register `i`: the range check of lane `2*i+1` first, then the lower lane, then the higher
(R43, R102, R147). -/
def doubleRead (i : Nat) (s : State) : Except FaultReason DWord :=
  if laneMissing (highLane i) s then .error (.badIndex (highLane i))
  else
    match laneRead (lowLane i) s with
    | .error r => .error r
    | .ok lo =>
      match laneRead (highLane i) s with
      | .error r => .error r
      | .ok hi => .ok (joinHalves hi lo)

/-- Write double register `i`: the range check of lane `2*i+1` before either write (R43, R104), the low half
to lane `2*i` and the high half to lane `2*i+1` (R44). -/
def doubleWrite (i : Nat) (v : DWord) (s : State) : Except FaultReason State :=
  if laneMissing (highLane i) s then .error (.badIndex (highLane i))
  else
    match laneWrite (lowLane i) (lowHalf v) s with
    | .error r => .error r
    | .ok t => laneWrite (highLane i) (highHalf v) t

/-- Read float register `i`: lane `i` (R29, R112). -/
def floatRead (i : Nat) (s : State) : Except FaultReason Word := laneRead i s

/-- Write float register `i`: lane `i` (R29, R114). -/
def floatWrite (i : Nat) (v : Word) (s : State) : Except FaultReason State := laneWrite i v s

/-- The result of a load goes to DOUT; a fault stays one. -/
def loadToDout (e : Except FaultReason DWord) (s : State) : Except FaultReason State :=
  match e with
  | .error r => .error r
  | .ok v => .ok (driveDout v s)

/-- After a save, DOUT is 0 (R66: SVD, SVF); a fault stays one. -/
def saveThenZero (e : Except FaultReason State) : Except FaultReason State :=
  match e with
  | .error r => .error r
  | .ok t => .ok (driveDout 0 t)

end Sys2Proof.Machine
end

