-- ==== Sys2Proof/Machine/Marshal.lean ====
section
/-! DEFINITION. The IEEE-754 bit marshaler: LDD, SVD, LDF, SVF (spec/41_fp_marshaling.md R100 to R120). Patterns
move unchanged (R101). -/

namespace Sys2Proof.Machine

/-- LDD (R102): DOUT takes `RBF[2*i+1] ++ RBF[2*i]`. -/
def execLdd (i : Nat) (s : State) : Result :=
  finishCommand s (loadToDout (doubleRead i s) s)

/-- SVD (R104): lanes `2*i` and `2*i+1` take the halves of DIN in one step; DOUT is 0. -/
def execSvd (i : Nat) (s : State) : Result :=
  finishCommand s (saveThenZero (doubleWrite i (dinDouble s) s))

/-- LDF (R112): DOUT takes lane `i`, zero-extended. -/
def execLdf (i : Nat) (s : State) : Result :=
  finishCommand s (loadToDout ((floatRead i s).map zext64) s)

/-- SVF (R114): lane `i` takes `DIN[31:0]`; DOUT is 0. -/
def execSvf (i : Nat) (s : State) : Result :=
  finishCommand s (saveThenZero (floatWrite i (dinWord s) s))

end Sys2Proof.Machine
end

