-- ==== Sys2Proof/Machine/Flags.lean ====
section
/-! DEFINITION. The block has no status flags and no condition codes (spec/10_state.md R23). What stands here is
the one comparison it computes: IEEE-754 equality of binary64 patterns (spec/42_nan_test.md R132), over the field
layouts of spec/00_scope.md R17. Layouts and equality are the spec's passages from general knowledge (log entry 13). -/

namespace Sys2Proof.Machine

/-- Sign of a binary64 pattern, bit 63 (R17). -/
def sign64 (b : DWord) : Bool := b.getLsbD 63

/-- Biased exponent of a binary64 pattern, bits 62:52 (R17). -/
def exponent64 (b : DWord) : BitVec 11 := b.extractLsb' 52 11

/-- Fraction of a binary64 pattern, bits 51:0 (R17). -/
def fraction64 (b : DWord) : BitVec 52 := b.extractLsb' 0 52

/-- Sign of a binary32 pattern, bit 31 (R17). -/
def sign32 (b : Word) : Bool := b.getLsbD 31

/-- Biased exponent of a binary32 pattern, bits 30:23 (R17). -/
def exponent32 (b : Word) : BitVec 8 := b.extractLsb' 23 8

/-- Fraction of a binary32 pattern, bits 22:0 (R17). -/
def fraction32 (b : Word) : BitVec 23 := b.extractLsb' 0 23

/-- The exponent-and-fraction test for a NaN (R17, R133). -/
def isNan64 (b : DWord) : Bool := exponent64 b == 0x7FF#11 && fraction64 b != 0#52

/-- An infinity (R17). -/
def isInfinity64 (b : DWord) : Bool := exponent64 b == 0x7FF#11 && fraction64 b == 0#52

/-- The same test on a binary32 pattern, by its layout (R17); no command computes it (R134). -/
def isNan32 (b : Word) : Bool := exponent32 b == 0xFF#8 && fraction32 b != 0#23

/-- What a binary64 pattern stands for. -/
inductive Number where
  /-- Not a number. -/
  | nan
  /-- An infinity; `true` is the negative one. -/
  | infinity (negative : Bool)
  /-- The finite number `units * 2^(-1074)`; both zeros are `finite 0`. -/
  | finite (units : Int)
  deriving DecidableEq, Repr

/-- The magnitude of a finite pattern in units of `2^(-1074)`, the least subnormal: the fraction where the biased
exponent `e` is 0, and the fraction with its leading 1, times `2^(e-1)`, otherwise. -/
def magnitude64 (b : DWord) : Nat :=
  if exponent64 b = 0#11 then (fraction64 b).toNat
  else (2 ^ 52 + (fraction64 b).toNat) * 2 ^ ((exponent64 b).toNat - 1)

/-- The number a binary64 pattern stands for (R17). -/
def number64 (b : DWord) : Number :=
  if isNan64 b then .nan
  else if isInfinity64 b then .infinity (sign64 b)
  else .finite (if sign64 b then -(magnitude64 b : Int) else (magnitude64 b : Int))

/-- `FEQ64(a, b)` (R132): false when either operand is a NaN, true when both are the same number (`+0.0` equals
`-0.0`), false otherwise. -/
def feq64 (a b : DWord) : Bool :=
  match number64 a, number64 b with
  | .nan, _ => false
  | _, .nan => false
  | x, y => decide (x = y)

end Sys2Proof.Machine
end

