-- ==== Sys2Proof/Machine/NanTest.lean ====
section
/-! DEFINITION. The NaN equality tester: ISNAN (spec/42_nan_test.md R130 to R135). -/

namespace Sys2Proof.Machine

/-- ISNAN (R131): DOUT is 1 if DIN is not equal to itself under IEEE-754 equality, else 0. It reads no lane and
never faults. -/
def execIsnan (s : State) : Result :=
  finishCommand s
    (.ok (driveDout (if feq64 (dinDouble s) (dinDouble s) then 0#64 else 1#64) s))

end Sys2Proof.Machine
end

