-- ==== Sys2Proof/Machine/SignExtend.lean ====
section
/-! DEFINITION. The sign-extension unit: SEXT (spec/40_sign_extension.md R80 to R88). -/

namespace Sys2Proof.Machine

/-- The result of SEXT for a legal width (R82). Width 32 returns the word and never shifts (R83); with bit `w-1`
clear the word is returned unchanged, its bits above the width included (R84, spec/90_conflicts.md C2). -/
def signExtendWord (w : Nat) (word : Word) : Word :=
  if w = 32 then word
  else if word.getLsbD (w - 1) then word ||| (ones32 <<< w)
  else word

/-- SEXT (R82): `BadWidth` before anything else; the result zero-extended into DOUT. -/
def execSext (w : Nat) (s : State) : Result :=
  finishCommand s
    (if w = 0 ∨ 32 < w then .error (.badWidth w)
     else .ok (driveDout (zext64 (signExtendWord w (dinWord s))) s))

end Sys2Proof.Machine
end

