-- ==== Sys2Proof/Machine/Dispatch.lean ====
section
/-! DEFINITION. One arm per command (spec/30_encoding.md R62), each a direct call of its meaning. -/

namespace Sys2Proof.Machine

def exec (i : Instr) (s : State) : Host.Outcome State Fault Refusal :=
  match i with
  | .sext w => Sys2Proof.Machine.execSext w s
  | .ldd r => Sys2Proof.Machine.execLdd r s
  | .svd r => Sys2Proof.Machine.execSvd r s
  | .ldf r => Sys2Proof.Machine.execLdf r s
  | .svf r => Sys2Proof.Machine.execSvf r s
  | .isnan => Sys2Proof.Machine.execIsnan s

end Sys2Proof.Machine
end

