-- ==== Sys2Proof/Machine/Owner.lean ====
section
/-! DEFINITION. The owner's direct access to the bank between commands (spec/20_memory.md R47). -/

namespace Sys2Proof.Machine

/-- `HostRead(l)`, which is `LaneRead(l)`: the value goes to the owner (the run's observation, R162). -/
def hostRead (l : Nat) (s : State) : Result :=
  finishOwner s ((laneRead l s).map fun v => observeLane l v s)

/-- `HostWrite(l, v)`, which is `LaneWrite(l, v)`. -/
def hostWrite (l : Nat) (v : Word) (s : State) : Result :=
  finishOwner s (laneWrite l v s)

end Sys2Proof.Machine
end

