-- ==== Sys2Proof/Machine/Edge.lean ====
section
/-! DEFINITION. What the next step of a run does: a rising edge of CLK (spec/70_reset_and_hazards.md R160, R161,
R167), an owner access (spec/20_memory.md R47), or nothing after a fault (spec/60_exceptions.md R141). The block
fetches no program (R58): commands come from `State.inputs` (log entry 6). -/

namespace Sys2Proof.Machine

/-- An edge with RST_N = 0: no command is taken, DOUT is 0, no lane changes (R160). -/
def resetEdge (s : State) : Result := .next (clearDout s)

/-- An edge with REQ = 0: DOUT becomes 0 and nothing else changes (R167). -/
def idleEdge (s : State) : Result := .next (clearDout s)

/-- An edge that takes the command on CMD: decode and execute it, or `IllegalCommand` (R69, R143, R147). -/
def commandEdge (s : State) : Result :=
  match decode s.ports.cmd with
  | .ok i => exec i s
  | .error _ => raise (.illegalCommand s.ports.cmd) s

/-- A rising edge of CLK with these values on the input ports. -/
def clockEdge (p : Ports) (s : State) : Result :=
  if p.rstN = false then resetEdge { s with ports := p }
  else if p.req = false then idleEdge { s with ports := p }
  else commandEdge { s with ports := p }

/-- One step of a run (R162). -/
def takeEvent (e : Event) (s : State) : Result :=
  match e with
  | .edge p => clockEdge p s
  | .hostRead l => hostRead l s
  | .hostWrite l v => hostWrite l v s

/-- The ports at an edge for which the caller presents nothing: no request; CMD, DIN and RST_N as they were. -/
def unrequested (p : Ports) : Ports := { p with req := false }

/-- The next step. After a fault there is none (R141). With no steps left, no request is presented, and the edge
is idle (R158, R167; DESIGN CHOICE, log entry 7). -/
def nextStep (s : State) : Result :=
  match s.faultMark with
  | some m => .fault (.noStepAfterFault m s)
  | none =>
    match s.inputs with
    | [] => clockEdge (unrequested s.ports) s
    | e :: rest => takeEvent e { s with inputs := rest }

/-- The machine with a request for the command word `w` as its next edge. DIN is what the port holds; a fault
mark is taken away, as a new launch does (log entry 6). -/
def placeCommand (w : CmdWord) (s : State) : State :=
  { s with
    faultMark := none
    inputs := .edge { rstN := true, req := true, cmd := w, din := s.ports.din } :: s.inputs }

end Sys2Proof.Machine
end

