-- ==== Sys2Proof/Machine/Step.lean ====
section
/-! DEFINITION. The step of the machine: the next step of the run (spec/70_reset_and_hazards.md R162). -/

namespace Sys2Proof.Machine

/-- One step. -/
def step (s : State) : Host.Outcome State Fault Refusal := nextStep s

/-- `s` with the command whose word is `w` presented at its next edge (every command is one 16-bit word, R71). -/
def State.withFetchWord (s : State) (_nbits w : Nat) : State := placeCommand (BitVec.ofNat 16 w) s

end Sys2Proof.Machine
end

