-- ==== Sys2Proof/Machine/Assembler.lean ====
section
/-! DEFINITION. The assembler syntax (spec/30_encoding.md R72): one command or owner step a line, and the step of
a run that each line stands for. A line's text is a list of characters. -/

namespace Sys2Proof.Machine

/-- A line of a program, its operands read as numbers (R72). -/
inductive AsmLine where
  /-- `sext <w>, <word>` -/
  | sext (w word : Nat)
  /-- `ldd <i>` -/
  | ldd (i : Nat)
  /-- `svd <i>, <value64>` -/
  | svd (i value64 : Nat)
  /-- `ldf <i>` -/
  | ldf (i : Nat)
  /-- `svf <i>, <value32>` -/
  | svf (i value32 : Nat)
  /-- `isnan <value64>` -/
  | isnan (value64 : Nat)
  /-- `host.rd <l>`, an owner step with no command word -/
  | hostRd (l : Nat)
  /-- `host.wr <l>, <value32>`, an owner step with no command word -/
  | hostWr (l value32 : Nat)
  deriving DecidableEq, Repr

/-- The edge that requests the command `i` with `d` on DIN. -/
def requestEdge (i : Instr) (d : DWord) : Event :=
  .edge { rstN := true, req := true, cmd := encode i, din := d }

/-- The step that requests `i` with the operand `d`, unless the command's operand does not fit its field or `d`
does not fit in `width` bits: then the assembler refuses (R72). -/
def assembleCommand (i : Instr) (width d : Nat) : Option Event :=
  if i.wellFormed && decide (d < 2 ^ width) then some (requestEdge i (BitVec.ofNat 64 d)) else none

/-- The step of a run that a line stands for, or a refusal (R72). -/
def assemble : AsmLine → Option Event
  | .sext w word => assembleCommand (.sext w) 32 word
  | .ldd i => assembleCommand (.ldd i) 64 0
  | .svd i v => assembleCommand (.svd i) 64 v
  | .ldf i => assembleCommand (.ldf i) 64 0
  | .svf i v => assembleCommand (.svf i) 32 v
  | .isnan v => assembleCommand .isnan 64 v
  | .hostRd l => some (.hostRead l)
  | .hostWr l v => if v < 2 ^ 32 then some (.hostWrite l (BitVec.ofNat 32 v)) else none

/-- The value of a digit: `0` to `9`, and `a` to `f` or `A` to `F`. -/
def digitValue (c : Char) : Option Nat :=
  if '0'.toNat ≤ c.toNat ∧ c.toNat ≤ '9'.toNat then some (c.toNat - '0'.toNat)
  else if 'a'.toNat ≤ c.toNat ∧ c.toNat ≤ 'f'.toNat then some (c.toNat - 'a'.toNat + 10)
  else if 'A'.toNat ≤ c.toNat ∧ c.toNat ≤ 'F'.toNat then some (c.toNat - 'A'.toNat + 10)
  else none

/-- The digits `cs` read in `base`, after digits whose value is `acc`. -/
def readDigits (base : Nat) : Nat → List Char → Option Nat
  | acc, [] => some acc
  | acc, c :: cs =>
    match digitValue c with
    | some d => if d < base then readDigits base (base * acc + d) cs else none
    | none => none

/-- A number in decimal or `0x` hexadecimal (R72). -/
def readNumber : List Char → Option Nat
  | [] => none
  | ['0', 'x'] => none
  | '0' :: 'x' :: cs => readDigits 16 0 cs
  | cs => readDigits 10 0 cs

/-- A piece of text without the spaces around it. -/
def trimSpaces (cs : List Char) : List Char :=
  ((cs.dropWhile (· = ' ')).reverse.dropWhile (· = ' ')).reverse

/-- The pieces of text between commas. -/
def splitCommas : List Char → List (List Char)
  | [] => [[]]
  | c :: cs =>
    if c = ',' then [] :: splitCommas cs
    else
      match splitCommas cs with
      | p :: ps => (c :: p) :: ps
      | [] => [[c]]

/-- The numbers of an operand list, if every operand is one. -/
def readOperands : List (List Char) → Option (List Nat)
  | [] => some []
  | p :: ps =>
    match readNumber (trimSpaces p), readOperands ps with
    | some n, some ns => some (n :: ns)
    | _, _ => none

/-- The line that a mnemonic and its operands form (R72). -/
def lineOf (mnemonic : List Char) (operands : List Nat) : Option AsmLine :=
  match operands with
  | [a] =>
    if mnemonic = ['l', 'd', 'd'] then some (.ldd a)
    else if mnemonic = ['l', 'd', 'f'] then some (.ldf a)
    else if mnemonic = ['i', 's', 'n', 'a', 'n'] then some (.isnan a)
    else if mnemonic = ['h', 'o', 's', 't', '.', 'r', 'd'] then some (.hostRd a)
    else none
  | [a, b] =>
    if mnemonic = ['s', 'e', 'x', 't'] then some (.sext a b)
    else if mnemonic = ['s', 'v', 'd'] then some (.svd a b)
    else if mnemonic = ['s', 'v', 'f'] then some (.svf a b)
    else if mnemonic = ['h', 'o', 's', 't', '.', 'w', 'r'] then some (.hostWr a b)
    else none
  | _ => none

/-- The line that a text is: a mnemonic, a space, and operands between commas. DESIGN CHOICE (log entry 15): spaces
around the mnemonic and the operands do not matter. -/
def parseLine (text : List Char) : Option AsmLine :=
  let cs := text.dropWhile (· = ' ')
  match readOperands (splitCommas (cs.dropWhile (· ≠ ' '))) with
  | some ops => lineOf (cs.takeWhile (· ≠ ' ')) ops
  | none => none

end Sys2Proof.Machine
end

