-- ==== Sys2Proof/Safety.lean ====
section
/-! DEFINITION. What counts as a safe run, in the terms statements use: the duties of the caller
(spec/70_reset_and_hazards.md R163, R165), the lanes a command needs (spec/20_memory.md R52) and writes (R48), the
invariant of the state, and a run with its observation (R162). -/

namespace Sys2Proof.Safety

open Sys2Proof.Machine

/-- Lane `l` exists and holds a value. -/
def laneHolds (s : State) (l : Nat) : Bool := ((s.rbf[l]?).join).isSome

/-- The caller's duties for a command (R163, R165): a legal width, lanes that exist, and a value in every lane it
reads. -/
def commandReady (s : State) : Instr → Bool
  | .sext w => decide (1 ≤ w) && decide (w ≤ 32)
  | .ldd i => laneHolds s (2 * i) && laneHolds s (2 * i + 1)
  | .svd i => decide (2 * i + 1 < s.rbf.length)
  | .ldf i => laneHolds s i
  | .svf i => decide (i < s.rbf.length)
  | .isnan => true

/-- How many lanes a command needs the bank to have (R52). -/
def lanesNeeded : Instr → Nat
  | .sext _ => 0
  | .ldd i => 2 * i + 2
  | .svd i => 2 * i + 2
  | .ldf i => i + 1
  | .svf i => i + 1
  | .isnan => 0

/-- The lanes a command writes (R48). -/
def lanesWritten : Instr → List Nat
  | .svd i => [2 * i, 2 * i + 1]
  | .svf i => [i]
  | .sext _ => []
  | .ldd _ => []
  | .ldf _ => []
  | .isnan => []

/-- The command that an edge takes, if it takes one that decodes (R69, R160, R167). -/
def commandAt (p : Ports) : Option Instr :=
  if p.rstN && p.req then (decode p.cmd).toOption else none

/-- The lanes that a step of a run writes (R48, R47). -/
def eventWrites : Event → List Nat
  | .edge p =>
    match commandAt p with
    | some i => lanesWritten i
    | none => []
  | .hostRead _ => []
  | .hostWrite l _ => [l]

/-- The caller's duties for a step of a run (R163, R165; R47 for the owner). -/
def eventReady (s : State) : Event → Bool
  | .edge p =>
    if p.rstN && p.req then
      match decode p.cmd with
      | .ok i => commandReady s i
      | .error _ => false
    else true
  | .hostRead l => laneHolds s l
  | .hostWrite l _ => decide (l < s.rbf.length)

/-- A legal width, where the command has one (R81). -/
def widthLegal : Instr → Bool
  | .sext w => decide (1 ≤ w) && decide (w ≤ 32)
  | .ldd _ => true
  | .svd _ => true
  | .ldf _ => true
  | .svf _ => true
  | .isnan => true

/-- A step of a run that a bank of `n` lanes, each with a value, serves: a word that decodes, a legal width, and no
lane beyond the bank (R52, R163). -/
def eventFits (n : Nat) : Event → Bool
  | .edge p =>
    if p.rstN && p.req then
      match decode p.cmd with
      | .ok i => widthLegal i && decide (lanesNeeded i ≤ n)
      | .error _ => false
    else true
  | .hostRead l => decide (l < n)
  | .hostWrite l _ => decide (l < n)

/-- A step of a run that the run's observation has an entry for: a command or a HostRead (R162). -/
def eventObserved : Event → Bool
  | .edge p => p.rstN && p.req
  | .hostRead _ => true
  | .hostWrite _ _ => false

/-- What a step of a run from `u` to `v` observes (R162): a command the DOUT it leaves, a HostRead the value its lane
held; an idle or reset edge and a HostWrite nothing (log entry 9). -/
def observedBy (e : Event) (u v : State) : List Observation :=
  match e with
  | .edge p => if p.rstN && p.req then [.dout v.dout] else []
  | .hostRead l =>
    match (u.rbf[l]?).join with
    | some x => [.lane l x]
    | none => []
  | .hostWrite _ _ => []

/-- The invariant of the state between the steps of a run that has not faulted: NLANES is in its range (R10) and no
fault is recorded (R34). -/
def Inv (s : State) : Prop := Bank.wf s.rbf = true ∧ s.faultMark = none

/-- A run (R162): from the launch of `bank`, the steps `events` in order. It answers a next state exactly when the
sequence is exhausted with no fault recorded. -/
def runFrom (bank : Bank) (events : List Event) : Host.Outcome State Fault Refusal :=
  Host.Core.run core events.length (State.launch bank events)

end Sys2Proof.Safety
end

