-- ==== Sys2Proof/Certificates/Slice0/Obligations.lean ====
section
/-! DEFINITION. The statements for the provers, grouped as the spec's files are. `s.observed` (the run's observation)
and `s.inputs` (the steps to come) are the model's own fields (log entries 6 and 9). -/

open Sys2Proof Sys2Proof.Machine Sys2Proof.Safety

/-! ### Encoding (spec/30_encoding.md) -/

/-- R61, R62, R69: decoding the word of a command whose operand fits its field gives the command back. -/
def Obligations.DecodeEncodeRoundTrip : Prop :=
  ∀ i : Instr, i.WellFormed → decode (encode i) = .ok i

/-- R69: a word that decodes to a command is that command's only word, and the command's operand fits its field. -/
def Obligations.DecodedWordIsItsEncoding : Prop :=
  ∀ (c : CmdWord) (i : Instr), decode c = .ok i → i.WellFormed ∧ encode i = c

/-- R67 to R69: the decoder refuses a word exactly when its operation code is 110 or 111 or a reserved field is not 0.
-/
def Obligations.DecodeRefusesExactlyReservedWords : Prop :=
  ∀ c : CmdWord,
    (∃ r, decode c = .error r) ↔
      (c.extractLsb' 0 3 = 6#3 ∨ c.extractLsb' 0 3 = 7#3) ∨
      (c.extractLsb' 0 3 = 0#3 ∧ c.extractLsb' 9 7 ≠ 0#7) ∨
      ((c.extractLsb' 0 3 = 1#3 ∨ c.extractLsb' 0 3 = 2#3 ∨ c.extractLsb' 0 3 = 3#3 ∨ c.extractLsb' 0 3 = 4#3) ∧
        c.extractLsb' 3 6 ≠ 0#6) ∨
      (c.extractLsb' 0 3 = 5#3 ∧ (c.extractLsb' 3 6 ≠ 0#6 ∨ c.extractLsb' 9 7 ≠ 0#7))

/-- R61 to R64: the value of every command word, `IDX * 2^9 + W * 2^3 + OP`. -/
def Obligations.EncodedWordLayout : Prop :=
  (∀ w, w ≤ 63 → (encode (.sext w)).toNat = w * 8) ∧
  (∀ i, i ≤ 127 → (encode (.ldd i)).toNat = i * 512 + 1) ∧
  (∀ i, i ≤ 127 → (encode (.svd i)).toNat = i * 512 + 2) ∧
  (∀ i, i ≤ 127 → (encode (.ldf i)).toNat = i * 512 + 3) ∧
  (∀ i, i ≤ 127 → (encode (.svf i)).toNat = i * 512 + 4) ∧
  (encode .isnan).toNat = 5

/-- Words of spec/95_test_vectors.md, sections 2.2 and 2.4, decode as those tables say. -/
def Obligations.SampleWordsDecode : Prop :=
  decode 0x0040#16 = .ok (.sext 8) ∧ decode 0x01F8#16 = .ok (.sext 63) ∧
  decode 0x0201#16 = .ok (.ldd 1) ∧ decode 0xFE02#16 = .ok (.svd 127) ∧
  decode 0x0A03#16 = .ok (.ldf 5) ∧ decode 0x0604#16 = .ok (.svf 3) ∧
  decode 0x0005#16 = .ok .isnan ∧
  decode 0x0200#16 = .error .reservedField ∧ decode 0x0006#16 = .error .reservedOperation

/-- R67: a request for a word with a reserved field that is not 0 is `IllegalCommand`, and no lane changes. -/
def Obligations.ReservedFieldIsIllegal : Prop :=
  ∀ (s : State) (p : Ports) (rest : List Event),
    s.faultMark = none → s.inputs = .edge p :: rest → p.rstN = true → p.req = true →
    ((p.cmd.extractLsb' 0 3 = 0#3 ∧ p.cmd.extractLsb' 9 7 ≠ 0#7) ∨
     ((p.cmd.extractLsb' 0 3 = 1#3 ∨ p.cmd.extractLsb' 0 3 = 2#3 ∨ p.cmd.extractLsb' 0 3 = 3#3 ∨
        p.cmd.extractLsb' 0 3 = 4#3) ∧ p.cmd.extractLsb' 3 6 ≠ 0#6) ∨
     (p.cmd.extractLsb' 0 3 = 5#3 ∧ (p.cmd.extractLsb' 3 6 ≠ 0#6 ∨ p.cmd.extractLsb' 9 7 ≠ 0#7))) →
    ∃ t, step s = .fault (.illegalCommand p.cmd t) ∧ t.rbf = s.rbf

/-- R68: a request for a word with operation code 110 or 111 is `IllegalCommand`, whatever its other fields hold. -/
def Obligations.ReservedOperationIsIllegal : Prop :=
  ∀ (s : State) (p : Ports) (rest : List Event),
    s.faultMark = none → s.inputs = .edge p :: rest → p.rstN = true → p.req = true →
    (p.cmd.extractLsb' 0 3 = 6#3 ∨ p.cmd.extractLsb' 0 3 = 7#3) →
    ∃ t, step s = .fault (.illegalCommand p.cmd t) ∧ t.rbf = s.rbf

/-- R72: what each assembler line stands for, and that a line whose number does not fit is refused. -/
def Obligations.AssemblerLinesAndRefusals : Prop :=
  (∀ w d, assemble (.sext w d) =
    if w ≤ 63 ∧ d < 2 ^ 32 then some (.edge ⟨true, true, encode (.sext w), BitVec.ofNat 64 d⟩) else none) ∧
  (∀ i, assemble (.ldd i) = if i ≤ 127 then some (.edge ⟨true, true, encode (.ldd i), 0#64⟩) else none) ∧
  (∀ i d, assemble (.svd i d) =
    if i ≤ 127 ∧ d < 2 ^ 64 then some (.edge ⟨true, true, encode (.svd i), BitVec.ofNat 64 d⟩) else none) ∧
  (∀ i, assemble (.ldf i) = if i ≤ 127 then some (.edge ⟨true, true, encode (.ldf i), 0#64⟩) else none) ∧
  (∀ i d, assemble (.svf i d) =
    if i ≤ 127 ∧ d < 2 ^ 32 then some (.edge ⟨true, true, encode (.svf i), BitVec.ofNat 64 d⟩) else none) ∧
  (∀ d, assemble (.isnan d) =
    if d < 2 ^ 64 then some (.edge ⟨true, true, encode .isnan, BitVec.ofNat 64 d⟩) else none) ∧
  (∀ l, assemble (.hostRd l) = some (.hostRead l)) ∧
  (∀ l d, assemble (.hostWr l d) = if d < 2 ^ 32 then some (.hostWrite l (BitVec.ofNat 32 d)) else none)

/-! ### The step (spec/70_reset_and_hazards.md, spec/60_exceptions.md, spec/20_memory.md) -/

/-- R69, R161, R167: an edge out of reset with a request runs the command its word decodes to, with the port values of
that edge; the step adds only the sampling of the ports and the consumption of the input. -/
def Obligations.StepRunsDecodedCommand : Prop :=
  ∀ (s : State) (p : Ports) (rest : List Event) (i : Instr),
    s.faultMark = none → s.inputs = .edge p :: rest → p.rstN = true → p.req = true → decode p.cmd = .ok i →
    step s = exec i { s with ports := p, inputs := rest }

/-- At an edge with RST_N = 0, whatever REQ holds, no command is taken, DOUT is 0, and no lane and nothing else changes
but the sampled ports and the consumed input. R160 says this of the whole time RST_N = 0; that it happens at a rising
edge, where the model samples RST_N, is the model's choice (log entry 8, DESIGN CHOICE). -/
def Obligations.ResetEdgeTakesNoCommand : Prop :=
  ∀ (s : State) (p : Ports) (rest : List Event),
    s.faultMark = none → s.inputs = .edge p :: rest → p.rstN = false →
    step s = .next { s with ports := p, inputs := rest, dout := 0#64 }

/-- R167: at an edge with REQ = 0, DOUT becomes 0 and nothing else changes; R69: the word is not decoded. -/
def Obligations.IdleEdgeClearsDout : Prop :=
  ∀ (s : State) (p : Ports) (rest : List Event),
    s.faultMark = none → s.inputs = .edge p :: rest → p.rstN = true → p.req = false →
    step s = .next { s with ports := p, inputs := rest, dout := 0#64 }

/-- The model's choice (log entry 7), after R158 and R167: with no step left, the next edge has no request. -/
def Obligations.ExhaustedInputIsIdle : Prop :=
  ∀ s : State, s.faultMark = none → s.inputs = [] →
    step s = .next { s with ports := { s.ports with req := false }, dout := 0#64 }

/-- From a state that holds a fault mark no input has a step, and the mark stays. R141 says of commands that they have
none after a fault, and that the mark is never cleared short of a new launch; that reset edges, idle edges and owner
accesses have none either is the model's deduction (log entry 2, DEDUCED). -/
def Obligations.NoStepAfterFault : Prop :=
  ∀ (s : State) (m : FaultMark), s.faultMark = some m → step s = .fault (.noStepAfterFault m s)

/-- R47: HostRead is LaneRead and HostWrite is LaneWrite, with their checks; the value read is observed. -/
def Obligations.OwnerReadsAndWritesLanes : Prop :=
  (∀ (s : State) (l : Nat) (rest : List Event) (v : Word),
    s.faultMark = none → s.inputs = .hostRead l :: rest → s.rbf[l]? = some (some v) →
    step s = .next { s with inputs := rest, observed := s.observed ++ [.lane l v] }) ∧
  (∀ (s : State) (l : Nat) (rest : List Event),
    s.faultMark = none → s.inputs = .hostRead l :: rest → s.rbf.length ≤ l →
    ∃ t, step s = .fault (.badIndex l t) ∧ t.rbf = s.rbf) ∧
  (∀ (s : State) (l : Nat) (rest : List Event),
    s.faultMark = none → s.inputs = .hostRead l :: rest → s.rbf[l]? = some none →
    ∃ t, step s = .fault (.unwrittenLane l t) ∧ t.rbf = s.rbf) ∧
  (∀ (s : State) (l : Nat) (v : Word) (rest : List Event),
    s.faultMark = none → s.inputs = .hostWrite l v :: rest → l < s.rbf.length →
    ∃ b, step s = .next { s with inputs := rest, rbf := b } ∧ b.length = s.rbf.length ∧
      b[l]? = some (some v) ∧ ∀ k, k ≠ l → b[k]? = s.rbf[k]?) ∧
  (∀ (s : State) (l : Nat) (v : Word) (rest : List Event),
    s.faultMark = none → s.inputs = .hostWrite l v :: rest → s.rbf.length ≤ l →
    ∃ t, step s = .fault (.badIndex l t) ∧ t.rbf = s.rbf)

/-- R142: the codes of the fault reasons, and the value recorded with each. -/
def Obligations.FaultCodesAndValues : Prop :=
  (∀ c, faultCode (.illegalCommand c) = 1 ∧ faultValue (.illegalCommand c) = c.toNat) ∧
  (∀ w, faultCode (.badWidth w) = 2 ∧ faultValue (.badWidth w) = w) ∧
  (∀ l, faultCode (.badIndex l) = 3 ∧ faultValue (.badIndex l) = l) ∧
  (∀ l, faultCode (.unwrittenLane l) = 4 ∧ faultValue (.unwrittenLane l) = l)

/-- R141, R43: whatever command word an edge requests, if the step faults then no lane has changed, the fault mark
holds the reason and the command word, and the fault outcome names the same reason. DOUT after it is a free value (log
entry 3), so nothing is said of it. -/
def Obligations.FaultingCommandMarksAndLeavesLanes : Prop :=
  ∀ (s : State) (p : Ports) (rest : List Event) (f : Fault),
    s.faultMark = none → s.inputs = .edge p :: rest → step s = .fault f →
    (faultState f).rbf = s.rbf ∧ (faultState f).observed = s.observed ∧ (faultState f).inputs = rest ∧
    ∃ r : FaultReason, (faultState f).faultMark = some ⟨r, some p.cmd⟩ ∧ f = toFault r (faultState f)

/-! ### Launch and reset (spec/10_state.md R35) -/

/-- R35: a launch takes the bank its owner supplies, records no fault and has DOUT 0; at reset too no fault is recorded
and DOUT is 0. -/
def Obligations.LaunchValues : Prop :=
  (∀ (b : Bank) (es : List Event),
    (State.launch b es).rbf = b ∧ (State.launch b es).faultMark = none ∧ (State.launch b es).dout = 0#64) ∧
  State.reset.faultMark = none ∧ State.reset.dout = 0#64

/-- The invariant holds at reset. That reset has 256 lanes is the model's choice (log entry 4). -/
def Obligations.InvHoldsAtReset : Prop := Inv State.reset

/-! ### SEXT (spec/40_sign_extension.md) -/

/-- R82, R83, R84: SEXT with a legal width completes on every state; bit `k` of the result is bit `k` of the word below
the width, and bit `k` of the word or the sign bit `w-1` at and above it; DOUT is the result zero-extended, and nothing
changes but DOUT and the run's observation. -/
def Obligations.SextResultBitByBit : Prop :=
  ∀ (w : Nat) (s : State), 1 ≤ w → w ≤ 32 →
    ∃ r : Word,
      exec (.sext w) s = .next { s with dout := r.setWidth 64, observed := s.observed ++ [.dout (r.setWidth 64)] } ∧
      ∀ k, k < 32 → r.getLsbD k =
        if k < w then (s.ports.din.extractLsb' 0 32).getLsbD k
        else ((s.ports.din.extractLsb' 0 32).getLsbD k || (s.ports.din.extractLsb' 0 32).getLsbD (w - 1))

/-- R83: width 32 returns the word, whether bit 31 is set or clear. -/
def Obligations.SextFullWidthIsNoOp : Prop :=
  ∀ s : State,
    exec (.sext 32) s = .next { s with
      dout := (s.ports.din.extractLsb' 0 32).setWidth 64
      observed := s.observed ++ [.dout ((s.ports.din.extractLsb' 0 32).setWidth 64)] }

/-- R84: below width 32 the bits above the width are not checked; they become 1 when the sign bit is 1 and pass through
when it is 0; on a word with none set the result is the sign extension of the low `w` bits. -/
def Obligations.SextBitsAboveWidth : Prop :=
  ∀ (w : Nat) (s : State) (word : Word), 1 ≤ w → w < 32 → s.ports.din.extractLsb' 0 32 = word →
    ∃ r : Word, (∃ t, exec (.sext w) s = .next t ∧ t.dout = r.setWidth 64) ∧
      (word.getLsbD (w - 1) = true → ∀ k, w ≤ k → k < 32 → r.getLsbD k = true) ∧
      (word.getLsbD (w - 1) = false → r = word) ∧
      ((∀ k, w ≤ k → k < 32 → word.getLsbD k = false) → r = (word.setWidth w).signExtend 32)

/-- From R82 and R83, as 40_sign_extension.md R85 derives it: the value of the result for an in-range word, and its
range. -/
def Obligations.SextInRangeValue : Prop :=
  ∀ (w : Nat) (s : State) (word : Word), 1 ≤ w → w ≤ 32 → s.ports.din.extractLsb' 0 32 = word → word.toNat < 2 ^ w →
    ∃ r : Word, (∃ t, exec (.sext w) s = .next t ∧ t.dout = r.setWidth 64) ∧
      r.toInt = (if word.getLsbD (w - 1) then (word.toNat : Int) - 2 ^ w else (word.toNat : Int)) ∧
      -(2 ^ (w - 1) : Int) ≤ r.toInt ∧ r.toInt ≤ 2 ^ (w - 1) - 1

/-- R86: the low bits and the sign of the result for an in-range word, and the full width. -/
def Obligations.SextSourceProperties : Prop :=
  (∀ (w : Nat) (s : State) (word : Word), 1 ≤ w → w ≤ 32 → s.ports.din.extractLsb' 0 32 = word → word.toNat < 2 ^ w →
    ∃ r : Word, (∃ t, exec (.sext w) s = .next t ∧ t.dout = r.setWidth 64) ∧
      r.setWidth w = word.setWidth w ∧ r.getLsbD 31 = word.getLsbD (w - 1)) ∧
  (∀ (s : State) (x : Word), s.ports.din.extractLsb' 0 32 = x →
    ∃ r : Word, (∃ t, exec (.sext 32) s = .next t ∧ t.dout = r.setWidth 64) ∧ r.toInt = x.toInt)

/-- R144: SEXT faults `BadWidth` exactly when the width is 0 or above 32, and leaves every lane. -/
def Obligations.SextBadWidth : Prop :=
  ∀ (w : Nat) (s : State),
    ((∃ t, exec (.sext w) s = .fault (.badWidth w t)) ↔ (w = 0 ∨ 32 < w)) ∧
    ∀ f, exec (.sext w) s = .fault f → (faultState f).rbf = s.rbf

/-- From R80 and R82, as 40_sign_extension.md R88 derives it: two SEXT commands with the same width and word give the
same DOUT, whatever the states hold otherwise, and each changes only DOUT (and the run's observation). -/
def Obligations.SextReadsOnlyWidthAndWord : Prop :=
  ∀ (w : Nat) (s s' : State), 1 ≤ w → w ≤ 32 → s.ports.din.extractLsb' 0 32 = s'.ports.din.extractLsb' 0 32 →
    ∃ d : DWord, exec (.sext w) s = .next { s with dout := d, observed := s.observed ++ [.dout d] } ∧
      exec (.sext w) s' = .next { s' with dout := d, observed := s'.observed ++ [.dout d] }

/-! ### LDD, SVD, LDF, SVF (spec/41_fp_marshaling.md) -/

/-- R102: with a value in both lanes LDD completes; DOUT is lane `2*i+1` over lane `2*i`, and nothing changes but DOUT
and the run's observation. -/
def Obligations.LddLoadsDouble : Prop :=
  ∀ (i : Nat) (s : State) (lo hi : Word),
    s.rbf[2 * i]? = some (some lo) → s.rbf[2 * i + 1]? = some (some hi) →
    exec (.ldd i) s = .next { s with dout := hi ++ lo, observed := s.observed ++ [.dout (hi ++ lo)] }

/-- R102, R147: LDD faults in this order: lane `2*i+1` does not exist, lane `2*i` holds no value, lane `2*i+1` holds no
value. No lane changes. -/
def Obligations.LddFaultPriority : Prop :=
  ∀ (i : Nat) (s : State),
    (s.rbf.length ≤ 2 * i + 1 → ∃ t, exec (.ldd i) s = .fault (.badIndex (2 * i + 1) t) ∧ t.rbf = s.rbf) ∧
    (2 * i + 1 < s.rbf.length → s.rbf[2 * i]? = some none →
      ∃ t, exec (.ldd i) s = .fault (.unwrittenLane (2 * i) t) ∧ t.rbf = s.rbf) ∧
    (∀ lo, s.rbf[2 * i]? = some (some lo) → s.rbf[2 * i + 1]? = some none →
      ∃ t, exec (.ldd i) s = .fault (.unwrittenLane (2 * i + 1) t) ∧ t.rbf = s.rbf)

/-- R104: with both lanes in the bank SVD completes, whether or not they held values; lane `2*i` takes DIN[31:0], lane
`2*i+1` takes DIN[63:32], no other lane changes, DOUT is 0, and nothing else changes but the run's observation. -/
def Obligations.SvdSavesDouble : Prop :=
  ∀ (i : Nat) (s : State), 2 * i + 1 < s.rbf.length →
    ∃ b : Bank,
      exec (.svd i) s = .next { s with rbf := b, dout := 0#64, observed := s.observed ++ [.dout 0#64] } ∧
      b.length = s.rbf.length ∧
      b[2 * i]? = some (some (s.ports.din.extractLsb' 0 32)) ∧
      b[2 * i + 1]? = some (some (s.ports.din.extractLsb' 32 32)) ∧
      ∀ l, l ≠ 2 * i → l ≠ 2 * i + 1 → b[l]? = s.rbf[l]?

/-- R43: LDD and SVD check both lane indices first; if lane `2*i+1` does not exist they fault with both lanes unchanged,
lane `2*i` included where it exists. -/
def Obligations.TwoLaneCommandsCheckRangeFirst : Prop :=
  ∀ (i : Nat) (s : State), s.rbf.length ≤ 2 * i + 1 →
    (∃ t, exec (.ldd i) s = .fault (.badIndex (2 * i + 1) t) ∧ t.rbf = s.rbf) ∧
    (∃ t, exec (.svd i) s = .fault (.badIndex (2 * i + 1) t) ∧ t.rbf = s.rbf)

/-- R112: with a value in lane `i` LDF completes; DOUT is the lane zero-extended, and nothing changes but DOUT and the
run's observation. -/
def Obligations.LdfLoadsFloat : Prop :=
  ∀ (i : Nat) (s : State) (v : Word), s.rbf[i]? = some (some v) →
    exec (.ldf i) s = .next { s with dout := v.setWidth 64, observed := s.observed ++ [.dout (v.setWidth 64)] }

/-- R114: with lane `i` in the bank SVF completes, whether or not it held a value; lane `i` takes DIN[31:0], no other
lane changes, DOUT is 0, and nothing else changes but the run's observation. -/
def Obligations.SvfSavesFloat : Prop :=
  ∀ (i : Nat) (s : State), i < s.rbf.length →
    ∃ b : Bank,
      exec (.svf i) s = .next { s with rbf := b, dout := 0#64, observed := s.observed ++ [.dout 0#64] } ∧
      b.length = s.rbf.length ∧
      b[i]? = some (some (s.ports.din.extractLsb' 0 32)) ∧
      ∀ l, l ≠ i → b[l]? = s.rbf[l]?

/-- R145: `BadIndex`, for each command and owner access that names a lane; no lane changes. -/
def Obligations.BadIndexRaised : Prop :=
  (∀ (i : Nat) (s : State), s.rbf.length ≤ 2 * i + 1 →
    (∃ t, exec (.ldd i) s = .fault (.badIndex (2 * i + 1) t) ∧ t.rbf = s.rbf) ∧
    (∃ t, exec (.svd i) s = .fault (.badIndex (2 * i + 1) t) ∧ t.rbf = s.rbf)) ∧
  (∀ (i : Nat) (s : State), s.rbf.length ≤ i →
    (∃ t, exec (.ldf i) s = .fault (.badIndex i t) ∧ t.rbf = s.rbf) ∧
    (∃ t, exec (.svf i) s = .fault (.badIndex i t) ∧ t.rbf = s.rbf)) ∧
  (∀ (l : Nat) (v : Word) (s : State), s.rbf.length ≤ l →
    (∃ t, hostRead l s = .fault (.badIndex l t) ∧ t.rbf = s.rbf) ∧
    (∃ t, hostWrite l v s = .fault (.badIndex l t) ∧ t.rbf = s.rbf))

/-- R146: `UnwrittenLane`, for each command and owner access that reads a lane: LDD of the lower empty lane, LDF, and
HostRead. -/
def Obligations.UnwrittenLaneRaised : Prop :=
  (∀ (i : Nat) (s : State), 2 * i + 1 < s.rbf.length → s.rbf[2 * i]? = some none →
    ∃ t, exec (.ldd i) s = .fault (.unwrittenLane (2 * i) t) ∧ t.rbf = s.rbf) ∧
  (∀ (i : Nat) (s : State) (lo : Word), s.rbf[2 * i]? = some (some lo) → s.rbf[2 * i + 1]? = some none →
    ∃ t, exec (.ldd i) s = .fault (.unwrittenLane (2 * i + 1) t) ∧ t.rbf = s.rbf) ∧
  (∀ (i : Nat) (s : State), s.rbf[i]? = some none →
    ∃ t, exec (.ldf i) s = .fault (.unwrittenLane i t) ∧ t.rbf = s.rbf) ∧
  (∀ (l : Nat) (s : State), s.rbf[l]? = some none →
    ∃ t, hostRead l s = .fault (.unwrittenLane l t) ∧ t.rbf = s.rbf)

/-- From R102 and R104, as 41_fp_marshaling.md R103 derives it: an LDD of `i` after an SVD of `v` to `i` returns `v`
bit for bit, after any steps between that write neither lane `2*i` nor lane `2*i+1`. -/
def Obligations.DoubleRoundTrip : Prop :=
  ∀ (i : Nat) (s : State), 2 * i + 1 < s.rbf.length →
    ∃ t, exec (.svd i) s = .next t ∧
      ∀ (k : Nat) (u : State),
        (∀ e ∈ t.inputs.take k, 2 * i ∉ eventWrites e ∧ 2 * i + 1 ∉ eventWrites e) →
        Host.Core.run core k t = .next u →
        ∃ u', exec (.ldd i) u = .next u' ∧ u'.dout = s.ports.din

/-- R115: an LDF of `i` after an SVF of a pattern to `i` returns it bit for bit, after any steps between that do not
write lane `i`; an index outside the bank is `BadIndex`. -/
def Obligations.FloatRoundTrip : Prop :=
  (∀ (i : Nat) (s : State), i < s.rbf.length →
    ∃ t, exec (.svf i) s = .next t ∧
      ∀ (k : Nat) (u : State),
        (∀ e ∈ t.inputs.take k, i ∉ eventWrites e) →
        Host.Core.run core k t = .next u →
        ∃ u', exec (.ldf i) u = .next u' ∧ u'.dout = (s.ports.din.extractLsb' 0 32).setWidth 64) ∧
  (∀ (i : Nat) (s : State), s.rbf.length ≤ i →
    (∃ t, exec (.ldf i) s = .fault (.badIndex i t)) ∧ (∃ t, exec (.svf i) s = .fault (.badIndex i t)))

/-- R105: after an SVD of `v` to `i`, a direct read of lane `2*i` returns `v[31:0]` and one of lane `2*i+1` returns
`v[63:32]`. -/
def Obligations.SvdLaneMapping : Prop :=
  ∀ (i : Nat) (s : State), 2 * i + 1 < s.rbf.length →
    ∃ t, exec (.svd i) s = .next t ∧
      hostRead (2 * i) t =
        .next { t with observed := t.observed ++ [.lane (2 * i) (s.ports.din.extractLsb' 0 32)] } ∧
      hostRead (2 * i + 1) t =
        .next { t with observed := t.observed ++ [.lane (2 * i + 1) (s.ports.din.extractLsb' 32 32)] }

/-- R116: after an SVF to float register `j`, a direct read of lane `j`, an LDF of `j`, and the matching half of an
LDD of `floor(j/2)` give the same 32-bit pattern: the low half for even `j`, the high half for odd `j`. (The LDD needs
a value in the other lane of the double register.) -/
def Obligations.FloatAliasesHalfOfDouble : Prop :=
  ∀ (j : Nat) (s : State) (v : Word), j < s.rbf.length → s.ports.din.extractLsb' 0 32 = v →
    ∃ t, exec (.svf j) s = .next t ∧
      hostRead j t = .next { t with observed := t.observed ++ [.lane j v] } ∧
      (∃ u, exec (.ldf j) t = .next u ∧ u.dout = v.setWidth 64) ∧
      (∀ x, j % 2 = 0 → s.rbf[j + 1]? = some (some x) →
        ∃ u, exec (.ldd (j / 2)) t = .next u ∧ u.dout.extractLsb' 0 32 = v) ∧
      (∀ x, j % 2 = 1 → s.rbf[j - 1]? = some (some x) →
        ∃ u, exec (.ldd (j / 2)) t = .next u ∧ u.dout.extractLsb' 32 32 = v)

/-- R119: SVF replaces one half of a double register and leaves the other; an LDD then returns the concatenation,
whatever its upper lane holds. -/
def Obligations.SvfLeavesOtherHalf : Prop :=
  ∀ (i : Nat) (s : State) (lo hi v : Word),
    s.rbf[2 * i]? = some (some lo) → s.rbf[2 * i + 1]? = some (some hi) → s.ports.din.extractLsb' 0 32 = v →
    (∃ t u, exec (.svf (2 * i)) s = .next t ∧ exec (.ldd i) t = .next u ∧ u.dout = hi ++ v) ∧
    (∃ t u, exec (.svf (2 * i + 1)) s = .next t ∧ exec (.ldd i) t = .next u ∧ u.dout = v ++ lo)

/-- R30, R45, R112: after an SVD to `i`, an LDF of `2*i` gives the low half of the value and an LDF of `2*i+1` the high
half. -/
def Obligations.SavedDoubleReadsAsFloats : Prop :=
  ∀ (i : Nat) (s : State), 2 * i + 1 < s.rbf.length →
    ∃ t, exec (.svd i) s = .next t ∧
      (∃ u, exec (.ldf (2 * i)) t = .next u ∧ u.dout = (s.ports.din.extractLsb' 0 32).setWidth 64) ∧
      (∃ u, exec (.ldf (2 * i + 1)) t = .next u ∧ u.dout = (s.ports.din.extractLsb' 32 32).setWidth 64)

/-- R50: repeating a command with the same operands completes again, leaves the lanes as they are, and gives the same
DOUT. -/
def Obligations.CommandsAreIdempotent : Prop :=
  ∀ (i : Instr) (s t : State), exec i s = .next t →
    ∃ u, exec i t = .next u ∧ u.rbf = t.rbf ∧ u.dout = t.dout

/-! ### ISNAN (spec/42_nan_test.md) -/

/-- R131, by the bit test that 42_nan_test.md R133 derives from R132 and R17 (general knowledge, log entry 13): ISNAN
completes on every state; DOUT is 1 if the exponent field of DIN is all ones and its fraction is not 0, else 0, and
nothing changes but DOUT and the run's observation. -/
def Obligations.IsnanAnswersNanBits : Prop :=
  ∀ (s : State) (d : DWord),
    d = (if s.ports.din.extractLsb' 52 11 = 0x7FF#11 ∧ s.ports.din.extractLsb' 0 52 ≠ 0#52 then 1#64 else 0#64) →
    exec .isnan s = .next { s with dout := d, observed := s.observed ++ [.dout d] }

/-- From R132 and R17 (general knowledge, log entry 13), as 42_nan_test.md R133 derives it: self-inequality under
IEEE-754 equality is the exponent-and-fraction test, on all patterns. -/
def Obligations.NanBitTestIsSelfInequality : Prop :=
  ∀ v : DWord, (!feq64 v v) = (v.extractLsb' 52 11 == 0x7FF#11 && v.extractLsb' 0 52 != 0#52)

/-- From R132 and R17 (general knowledge, log entry 13): two patterns are equal exactly when neither is a NaN and they
are the same pattern or both zeros: no two other patterns stand for the same number. -/
def Obligations.EqualPatternsOrZeros : Prop :=
  ∀ a b : DWord, feq64 a b = true ↔
    isNan64 a = false ∧ isNan64 b = false ∧
      (a = b ∨ (a.extractLsb' 0 63 = 0#63 ∧ b.extractLsb' 0 63 = 0#63))

/-- From R131, as 42_nan_test.md R135 derives it: ISNAN's answer depends only on DIN, and subnormal patterns give 0. -/
def Obligations.IsnanDependsOnlyOnDin : Prop :=
  (∀ s s' : State, s.ports.din = s'.ports.din →
    ∃ d : DWord, (∃ t, exec .isnan s = .next t ∧ t.dout = d) ∧ (∃ t, exec .isnan s' = .next t ∧ t.dout = d)) ∧
  (∀ s : State, s.ports.din.extractLsb' 52 11 = 0#11 → s.ports.din.extractLsb' 0 52 ≠ 0#52 →
    ∃ t, exec .isnan s = .next t ∧ t.dout = 0#64)

/-- R134: a binary32 pattern in the low half over an upper half of 0, a binary32 NaN included, is no binary64 NaN. -/
def Obligations.LowHalfBinary32IsNoNan : Prop :=
  ∀ (s : State) (f : Word), s.ports.din = f.setWidth 64 →
    ∃ t, exec .isnan s = .next t ∧ t.dout = 0#64

/-! ### All commands -/

/-- R48, R50, R80, R102, R104, R112, R114, R131: the frame of SEXT, LDD, SVD, LDF, SVF and ISNAN. A command that
completes changes no lane but those it writes (2*i and 2*i+1 for SVD, i for SVF, none otherwise), not the number of
lanes, not the fault mark, and adds its DOUT to the run's observation; ports, inputs and free-value counter stay. -/
def Obligations.CommandFrame : Prop :=
  ∀ (i : Instr) (s t : State), exec i s = .next t →
    t.rbf.length = s.rbf.length ∧ (∀ l, l ∉ lanesWritten i → t.rbf[l]? = s.rbf[l]?) ∧
    t.faultMark = s.faultMark ∧ t.observed = s.observed ++ [.dout t.dout] ∧
    t.ports = s.ports ∧ t.inputs = s.inputs ∧ t.freeCount = s.freeCount

/-- R163, R165: a command completes exactly when its caller has kept the duties: a legal width, lanes that exist, and a
value in every lane the command reads. No command is refused. -/
def Obligations.CommandCompletesIffReady : Prop :=
  ∀ (i : Instr) (s : State),
    ((∃ t, exec i s = .next t) ↔ commandReady s i = true) ∧ ∀ r, exec i s ≠ .refused r

/-- R66: the upper half of DOUT is 0 after SEXT, LDF, SVD, SVF and ISNAN; DOUT is 0 after SVD and SVF, and 0 or 1 after
ISNAN. -/
def Obligations.DoutUpperBitsZero : Prop :=
  (∀ (w : Nat) (s t : State), exec (.sext w) s = .next t → t.dout.extractLsb' 32 32 = 0#32) ∧
  (∀ (i : Nat) (s t : State), exec (.ldf i) s = .next t → t.dout.extractLsb' 32 32 = 0#32) ∧
  (∀ (i : Nat) (s t : State), exec (.svd i) s = .next t → t.dout = 0#64) ∧
  (∀ (i : Nat) (s t : State), exec (.svf i) s = .next t → t.dout = 0#64) ∧
  (∀ s t : State, exec .isnan s = .next t → t.dout = 0#64 ∨ t.dout = 1#64)

/-- R65: bits of DIN that a command ignores have no effect and never fault: all of DIN for LDD and LDF, DIN[63:32] for
SEXT and SVF. -/
def Obligations.IgnoredDinBitsHaveNoEffect : Prop :=
  (∀ (i : Instr) (s : State) (d : DWord) (t : State),
    (∃ n, i = .ldd n ∨ i = .ldf n) → exec i s = .next t →
    exec i { s with ports := { s.ports with din := d } } = .next { t with ports := { t.ports with din := d } }) ∧
  (∀ (i : Instr) (s : State) (d : DWord) (t : State),
    (∃ n, i = .sext n ∨ i = .svf n) → d.extractLsb' 0 32 = s.ports.din.extractLsb' 0 32 → exec i s = .next t →
    exec i { s with ports := { s.ports with din := d } } = .next { t with ports := { t.ports with din := d } })

/-- R2: SEXT and ISNAN neither read nor write the bank: on any other bank they do the same and leave that bank. -/
def Obligations.BankUnusedBySextAndIsnan : Prop :=
  ∀ (i : Instr) (s : State) (b : Bank) (t : State),
    (i = .isnan ∨ ∃ w, i = .sext w) → exec i s = .next t →
    t.rbf = s.rbf ∧ exec i { s with rbf := b } = .next { t with rbf := b }

/-- R20, R33: a command's effect on the lanes and on DOUT depends only on the lanes and the ports: no hidden state. -/
def Obligations.ResultsDependOnlyOnLanesAndPorts : Prop :=
  ∀ (i : Instr) (s s' t : State), s.rbf = s'.rbf → s.ports = s'.ports → exec i s = .next t →
    ∃ t', exec i s' = .next t' ∧ t'.rbf = t.rbf ∧ t'.dout = t.dout

/-! ### Invariants and runs -/

/-- Every step keeps the invariant: NLANES in its range (R10) and no fault recorded (R34). -/
def Obligations.StepKeepsInvariant : Prop :=
  ∀ s t : State, Inv s → step s = .next t → Inv t

/-- A step of a run completes exactly when its caller has kept the duties for it (R163, R165, R47). -/
def Obligations.StepCompletesIffReady : Prop :=
  ∀ (s : State) (e : Event) (rest : List Event),
    s.faultMark = none → s.inputs = e :: rest →
    ((∃ t, step s = .next t) ↔ eventReady s e = true)

/-- R26: no run changes the number of lanes. -/
def Obligations.LaneCountNeverChanges : Prop :=
  ∀ (k : Nat) (s t : State), Host.Core.run core k s = .next t → t.rbf.length = s.rbf.length

/-- R27: after a run, a lane of the bank holds a value exactly when it held one before or a step of the run wrote it. -/
def Obligations.LaneHoldsValueIffWritten : Prop :=
  ∀ (k : Nat) (s t : State), Host.Core.run core k s = .next t →
    ∀ l, l < s.rbf.length →
      (laneHolds t l = true ↔ laneHolds s l = true ∨ ∃ e ∈ s.inputs.take k, l ∈ eventWrites e)

/-- R50, R54: a run leaves every lane that none of its steps writes as it was. -/
def Obligations.RunLeavesUnwrittenLanes : Prop :=
  ∀ (k : Nat) (s t : State) (l : Nat), Host.Core.run core k s = .next t →
    (∀ e ∈ s.inputs.take k, l ∉ eventWrites e) → t.rbf[l]? = s.rbf[l]?

/-- R162: a run that ends with no fault has performed every step, and each step has added to the observation what it
observes: a command the DOUT it leaves, a HostRead of lane `l` the value lane `l` held, one entry each. So the number of
entries is the number of commands and HostReads. That idle and reset edges and HostWrites add none is the model's
deduction (log entry 9, DEDUCED). -/
def Obligations.RunObservesEveryCommandAndRead : Prop :=
  ∀ (bank : Bank) (events : List Event) (t : State), runFrom bank events = .next t →
    t.inputs = [] ∧ t.faultMark = none ∧ t.observed.length = (events.filter eventObserved).length ∧
    ∀ (k : Nat) (e : Event), events[k]? = some e →
      ∃ u v : State,
        Host.Core.run core k (State.launch bank events) = .next u ∧
        Host.Core.run core (k + 1) (State.launch bank events) = .next v ∧
        v.observed = u.observed ++ observedBy e u v

/-- R52, R163: from a bank in which every lane holds a value, a run whose requests decode, with legal widths and
within the bank, completes with no fault. -/
def Obligations.FullBankRunCompletes : Prop :=
  ∀ (bank : Bank) (events : List Event),
    (∀ c ∈ bank, c.isSome = true) → (∀ e ∈ events, eventFits bank.length e = true) →
    ∃ t, runFrom bank events = .next t
end

