-- ==== Sys2Proof/Laws/State.lean ====
section
/-! SUPPORT. One lemma per field per named update of the state, so that no later proof unfolds a record update. -/

namespace Sys2Proof.Machine

@[simp] theorem setLane_rbf (l : Nat) (v : Word) (s : State) :
    (setLane l v s).rbf = s.rbf.set l (some v) := rfl
@[simp] theorem setLane_dout (l : Nat) (v : Word) (s : State) : (setLane l v s).dout = s.dout := rfl
@[simp] theorem setLane_faultMark (l : Nat) (v : Word) (s : State) :
    (setLane l v s).faultMark = s.faultMark := rfl
@[simp] theorem setLane_ports (l : Nat) (v : Word) (s : State) : (setLane l v s).ports = s.ports := rfl
@[simp] theorem setLane_inputs (l : Nat) (v : Word) (s : State) : (setLane l v s).inputs = s.inputs := rfl
@[simp] theorem setLane_observed (l : Nat) (v : Word) (s : State) :
    (setLane l v s).observed = s.observed := rfl
@[simp] theorem setLane_freeCount (l : Nat) (v : Word) (s : State) :
    (setLane l v s).freeCount = s.freeCount := rfl

@[simp] theorem driveDout_rbf (v : DWord) (s : State) : (driveDout v s).rbf = s.rbf := rfl
@[simp] theorem driveDout_dout (v : DWord) (s : State) : (driveDout v s).dout = v := rfl
@[simp] theorem driveDout_faultMark (v : DWord) (s : State) : (driveDout v s).faultMark = s.faultMark := rfl
@[simp] theorem driveDout_ports (v : DWord) (s : State) : (driveDout v s).ports = s.ports := rfl
@[simp] theorem driveDout_inputs (v : DWord) (s : State) : (driveDout v s).inputs = s.inputs := rfl
@[simp] theorem driveDout_observed (v : DWord) (s : State) :
    (driveDout v s).observed = s.observed ++ [.dout v] := rfl
@[simp] theorem driveDout_freeCount (v : DWord) (s : State) : (driveDout v s).freeCount = s.freeCount := rfl

@[simp] theorem clearDout_rbf (s : State) : (clearDout s).rbf = s.rbf := rfl
@[simp] theorem clearDout_dout (s : State) : (clearDout s).dout = 0 := rfl
@[simp] theorem clearDout_faultMark (s : State) : (clearDout s).faultMark = s.faultMark := rfl
@[simp] theorem clearDout_ports (s : State) : (clearDout s).ports = s.ports := rfl
@[simp] theorem clearDout_inputs (s : State) : (clearDout s).inputs = s.inputs := rfl
@[simp] theorem clearDout_observed (s : State) : (clearDout s).observed = s.observed := rfl
@[simp] theorem clearDout_freeCount (s : State) : (clearDout s).freeCount = s.freeCount := rfl

@[simp] theorem observeLane_rbf (l : Nat) (v : Word) (s : State) : (observeLane l v s).rbf = s.rbf := rfl
@[simp] theorem observeLane_dout (l : Nat) (v : Word) (s : State) : (observeLane l v s).dout = s.dout := rfl
@[simp] theorem observeLane_faultMark (l : Nat) (v : Word) (s : State) :
    (observeLane l v s).faultMark = s.faultMark := rfl
@[simp] theorem observeLane_ports (l : Nat) (v : Word) (s : State) :
    (observeLane l v s).ports = s.ports := rfl
@[simp] theorem observeLane_inputs (l : Nat) (v : Word) (s : State) :
    (observeLane l v s).inputs = s.inputs := rfl
@[simp] theorem observeLane_observed (l : Nat) (v : Word) (s : State) :
    (observeLane l v s).observed = s.observed ++ [.lane l v] := rfl
@[simp] theorem observeLane_freeCount (l : Nat) (v : Word) (s : State) :
    (observeLane l v s).freeCount = s.freeCount := rfl

@[simp] theorem afterCommandFault_rbf (r : FaultReason) (s : State) :
    (afterCommandFault r s).rbf = s.rbf := rfl
@[simp] theorem afterCommandFault_dout (r : FaultReason) (s : State) :
    (afterCommandFault r s).dout = Config.freeDout s.freeCount := rfl
@[simp] theorem afterCommandFault_faultMark (r : FaultReason) (s : State) :
    (afterCommandFault r s).faultMark = some { reason := r, cmd := some s.ports.cmd } := rfl
@[simp] theorem afterCommandFault_ports (r : FaultReason) (s : State) :
    (afterCommandFault r s).ports = s.ports := rfl
@[simp] theorem afterCommandFault_inputs (r : FaultReason) (s : State) :
    (afterCommandFault r s).inputs = s.inputs := rfl
@[simp] theorem afterCommandFault_observed (r : FaultReason) (s : State) :
    (afterCommandFault r s).observed = s.observed := rfl
@[simp] theorem afterCommandFault_freeCount (r : FaultReason) (s : State) :
    (afterCommandFault r s).freeCount = s.freeCount + 1 := rfl

@[simp] theorem afterOwnerFault_rbf (r : FaultReason) (s : State) : (afterOwnerFault r s).rbf = s.rbf := rfl
@[simp] theorem afterOwnerFault_dout (r : FaultReason) (s : State) :
    (afterOwnerFault r s).dout = s.dout := rfl
@[simp] theorem afterOwnerFault_faultMark (r : FaultReason) (s : State) :
    (afterOwnerFault r s).faultMark = some { reason := r, cmd := none } := rfl
@[simp] theorem afterOwnerFault_ports (r : FaultReason) (s : State) :
    (afterOwnerFault r s).ports = s.ports := rfl
@[simp] theorem afterOwnerFault_inputs (r : FaultReason) (s : State) :
    (afterOwnerFault r s).inputs = s.inputs := rfl
@[simp] theorem afterOwnerFault_observed (r : FaultReason) (s : State) :
    (afterOwnerFault r s).observed = s.observed := rfl
@[simp] theorem afterOwnerFault_freeCount (r : FaultReason) (s : State) :
    (afterOwnerFault r s).freeCount = s.freeCount := rfl

@[simp] theorem launch_rbf (b : Bank) (es : List Event) : (State.launch b es).rbf = b := rfl
@[simp] theorem launch_dout (b : Bank) (es : List Event) : (State.launch b es).dout = 0 := rfl
@[simp] theorem launch_faultMark (b : Bank) (es : List Event) : (State.launch b es).faultMark = none := rfl
@[simp] theorem launch_inputs (b : Bank) (es : List Event) : (State.launch b es).inputs = es := rfl
@[simp] theorem launch_observed (b : Bank) (es : List Event) : (State.launch b es).observed = [] := rfl

end Sys2Proof.Machine
end

