-- ==== Sys2Proof/Laws/Ops.lean ====
section
/-! SUPPORT. For each shared operation, once, everything it can do (spec/20_memory.md R41 to R43;
spec/60_exceptions.md R141). -/

namespace Sys2Proof.Machine

/-- A lane is missing exactly when its number is NLANES or more (R25). -/
theorem laneMissing_iff (l : Nat) (s : State) : laneMissing l s = true ↔ s.rbf.length ≤ l := by
  simp [laneMissing]

/-- LaneRead answers a value exactly when the lane exists and holds it (R41). -/
theorem laneRead_ok_iff (l : Nat) (v : Word) (s : State) :
    laneRead l s = .ok v ↔ s.rbf[l]? = some (some v) := by
  simp only [laneRead, laneMissing_iff]
  by_cases h : s.rbf.length ≤ l
  · simp [h]
  · have hl : l < s.rbf.length := by omega
    cases hc : s.rbf[l] <;> simp [h, hl, hc, List.getD]

/-- LaneRead faults `BadIndex` exactly when the lane does not exist, and `UnwrittenLane` exactly when it exists and
holds no value (R41). -/
theorem laneRead_error_iff (l : Nat) (r : FaultReason) (s : State) :
    laneRead l s = .error r ↔
      (s.rbf.length ≤ l ∧ r = .badIndex l) ∨ (s.rbf[l]? = some none ∧ r = .unwrittenLane l) := by
  simp only [laneRead, laneMissing_iff]
  by_cases h : s.rbf.length ≤ l
  · simp [h, eq_comm]
  · have hl : l < s.rbf.length := by omega
    cases hc : s.rbf[l] <;> simp [h, hl, hc, List.getD, eq_comm]

/-- LaneWrite answers a state exactly when the lane exists (R42). -/
theorem laneWrite_ok_iff (l : Nat) (v : Word) (s t : State) :
    laneWrite l v s = .ok t ↔ l < s.rbf.length ∧ t = setLane l v s := by
  simp only [laneWrite, laneMissing_iff]
  by_cases h : s.rbf.length ≤ l
  · simp [h]
  · simp [h, eq_comm]; omega

/-- LaneWrite faults exactly when the lane does not exist (R42). -/
theorem laneWrite_error_iff (l : Nat) (v : Word) (r : FaultReason) (s : State) :
    laneWrite l v s = .error r ↔ s.rbf.length ≤ l ∧ r = .badIndex l := by
  simp only [laneWrite, laneMissing_iff]
  by_cases h : s.rbf.length ≤ l <;> simp [h, eq_comm]

/-- A read of the lane just written gives the value written (R42). -/
theorem laneRead_setLane_same (l : Nat) (v : Word) (s : State) (h : l < s.rbf.length) :
    laneRead l (setLane l v s) = .ok v := by
  simp [laneRead_ok_iff, h]

/-- A write changes no other lane (R50). -/
theorem getElem?_setLane_other (l k : Nat) (v : Word) (s : State) (h : k ≠ l) :
    (setLane l v s).rbf[k]? = s.rbf[k]? := by
  simp [List.getElem?_set_ne (Ne.symm h)]

/-- No write changes NLANES (R26). -/
theorem setLane_length (l : Nat) (v : Word) (s : State) :
    (setLane l v s).rbf.length = s.rbf.length := by
  simp

/-- LaneWrite keeps the bank's form (R10, R26). -/
theorem laneWrite_wf (l : Nat) (v : Word) (s t : State) (h : laneWrite l v s = .ok t) :
    Bank.wf t.rbf = Bank.wf s.rbf := by
  obtain ⟨-, rfl⟩ := (laneWrite_ok_iff l v s t).1 h
  simp [Bank.wf]

/-- The bank of the reset state has its form. -/
theorem reset_bank_wf : Bank.wf State.reset.rbf = true := by
  unfold State.reset Bank.wf
  rw [launch_rbf, List.length_replicate]
  decide

/-- A double read answers exactly when both lanes hold values (R102). -/
theorem doubleRead_ok_iff (i : Nat) (d : DWord) (s : State) :
    doubleRead i s = .ok d ↔
      ∃ lo hi, s.rbf[2 * i]? = some (some lo) ∧ s.rbf[2 * i + 1]? = some (some hi) ∧ d = joinHalves hi lo := by
  unfold doubleRead
  simp only [lowLane, highLane, laneMissing_iff]
  constructor
  · intro h
    by_cases hb : s.rbf.length ≤ 2 * i + 1
    · simp [hb] at h
    · simp only [hb, if_false] at h
      cases hlo : laneRead (2 * i) s with
      | error r => simp [hlo] at h
      | ok lo =>
        cases hhi : laneRead (2 * i + 1) s with
        | error r => simp [hlo, hhi] at h
        | ok hi =>
          refine ⟨lo, hi, (laneRead_ok_iff _ _ _).1 hlo, (laneRead_ok_iff _ _ _).1 hhi, ?_⟩
          simpa [hlo, hhi, eq_comm] using h
  · rintro ⟨lo, hi, hlo, hhi, rfl⟩
    have hb : ¬ s.rbf.length ≤ 2 * i + 1 := fun hle => by
      rw [List.getElem?_eq_none hle] at hhi
      cases hhi
    simp [hb, (laneRead_ok_iff _ _ _).2 hlo, (laneRead_ok_iff _ _ _).2 hhi]

/-- Why a double read faults, in the order of R147. -/
theorem doubleRead_error_iff (i : Nat) (r : FaultReason) (s : State) :
    doubleRead i s = .error r ↔
      (s.rbf.length ≤ 2 * i + 1 ∧ r = .badIndex (2 * i + 1)) ∨
      (2 * i + 1 < s.rbf.length ∧ s.rbf[2 * i]? = some none ∧ r = .unwrittenLane (2 * i)) ∨
      (2 * i + 1 < s.rbf.length ∧ (∃ lo, s.rbf[2 * i]? = some (some lo)) ∧ s.rbf[2 * i + 1]? = some none ∧
        r = .unwrittenLane (2 * i + 1)) := by
  unfold doubleRead
  simp only [lowLane, highLane, laneMissing_iff]
  by_cases hb : s.rbf.length ≤ 2 * i + 1
  · have hn : ¬ 2 * i + 1 < s.rbf.length := by omega
    simp [hb, hn, eq_comm]
  · have hn : 2 * i + 1 < s.rbf.length := by omega
    have h0 : 2 * i < s.rbf.length := by omega
    cases hlo : s.rbf[2 * i] with
    | none =>
      have h : laneRead (2 * i) s = .error (.unwrittenLane (2 * i)) :=
        (laneRead_error_iff _ _ _).2 (.inr ⟨by simp [h0, hlo], rfl⟩)
      simp [hb, hn, h0, hlo, h, eq_comm]
    | some lo =>
      have h : laneRead (2 * i) s = .ok lo := (laneRead_ok_iff _ _ _).2 (by simp [h0, hlo])
      cases hhi : s.rbf[2 * i + 1] with
      | none =>
        have h' : laneRead (2 * i + 1) s = .error (.unwrittenLane (2 * i + 1)) :=
          (laneRead_error_iff _ _ _).2 (.inr ⟨by simp [hn, hhi], rfl⟩)
        simp [hb, hn, h0, hlo, hhi, h, h', eq_comm]
      | some hi =>
        have h' : laneRead (2 * i + 1) s = .ok hi := (laneRead_ok_iff _ _ _).2 (by simp [hn, hhi])
        simp [hb, hn, h0, hlo, hhi, h, h']

/-- A double write answers exactly when both lanes exist; it sets both (R104). -/
theorem doubleWrite_ok_iff (i : Nat) (d : DWord) (s t : State) :
    doubleWrite i d s = .ok t ↔
      2 * i + 1 < s.rbf.length ∧ t = setLane (2 * i + 1) (highHalf d) (setLane (2 * i) (lowHalf d) s) := by
  unfold doubleWrite
  simp only [lowLane, highLane, laneMissing_iff]
  by_cases hb : s.rbf.length ≤ 2 * i + 1
  · simp [hb]
  · have hn : 2 * i + 1 < s.rbf.length := by omega
    have h : laneWrite (2 * i) (lowHalf d) s = .ok (setLane (2 * i) (lowHalf d) s) :=
      (laneWrite_ok_iff _ _ _ _).2 ⟨by omega, rfl⟩
    simp [hb, h, laneWrite_ok_iff, hn]

/-- A double write faults exactly when lane `2*i+1` does not exist (R104). -/
theorem doubleWrite_error_iff (i : Nat) (d : DWord) (r : FaultReason) (s : State) :
    doubleWrite i d s = .error r ↔ s.rbf.length ≤ 2 * i + 1 ∧ r = .badIndex (2 * i + 1) := by
  unfold doubleWrite
  simp only [lowLane, highLane, laneMissing_iff]
  by_cases hb : s.rbf.length ≤ 2 * i + 1
  · simp [hb, eq_comm]
  · have h : laneWrite (2 * i) (lowHalf d) s = .ok (setLane (2 * i) (lowHalf d) s) :=
      (laneWrite_ok_iff _ _ _ _).2 ⟨by omega, rfl⟩
    simp [hb, h, laneWrite_error_iff]

/-- A load completes exactly when its read answers. -/
theorem loadToDout_ok_iff (e : Except FaultReason DWord) (s t : State) :
    loadToDout e s = .ok t ↔ ∃ v, e = .ok v ∧ t = driveDout v s := by
  cases e <;> simp [loadToDout, eq_comm]

/-- A load faults exactly when its read does. -/
theorem loadToDout_error_iff (e : Except FaultReason DWord) (s : State) (r : FaultReason) :
    loadToDout e s = .error r ↔ e = .error r := by
  cases e <;> simp [loadToDout]

/-- A save completes exactly when its write answers. -/
theorem saveThenZero_ok_iff (e : Except FaultReason State) (t : State) :
    saveThenZero e = .ok t ↔ ∃ u, e = .ok u ∧ t = driveDout 0 u := by
  cases e <;> simp [saveThenZero, eq_comm]

/-- A save faults exactly when its write does. -/
theorem saveThenZero_error_iff (e : Except FaultReason State) (r : FaultReason) :
    saveThenZero e = .error r ↔ e = .error r := by
  cases e <;> simp [saveThenZero]

/-- A command answers a next state exactly when its body does. -/
theorem finishCommand_next_iff (s : State) (e : Except FaultReason State) (t : State) :
    finishCommand s e = .next t ↔ e = .ok t := by
  cases e <;> simp [finishCommand, raise]

/-- A command faults exactly when its body does, and leaves the state before it with the mark set (R141). -/
theorem finishCommand_fault_iff (s : State) (e : Except FaultReason State) (f : Fault) :
    finishCommand s e = .fault f ↔ ∃ r, e = .error r ∧ f = toFault r (afterCommandFault r s) := by
  cases e <;> simp [finishCommand, raise, eq_comm]

/-- No command is refused. -/
theorem finishCommand_not_refused (s : State) (e : Except FaultReason State) (r : Refusal) :
    finishCommand s e ≠ .refused r := by
  cases e <;> simp [finishCommand, raise]

/-- An owner access answers a next state exactly when its body does. -/
theorem finishOwner_next_iff (s : State) (e : Except FaultReason State) (t : State) :
    finishOwner s e = .next t ↔ e = .ok t := by
  cases e <;> simp [finishOwner, raiseOwner]

/-- An owner access faults exactly when its body does. -/
theorem finishOwner_fault_iff (s : State) (e : Except FaultReason State) (f : Fault) :
    finishOwner s e = .fault f ↔ ∃ r, e = .error r ∧ f = toFault r (afterOwnerFault r s) := by
  cases e <;> simp [finishOwner, raiseOwner, eq_comm]

/-- The state a fault outcome carries. -/
@[simp] theorem faultState_toFault (r : FaultReason) (t : State) : faultState (toFault r t) = t := by
  cases r <;> rfl

/-- The bits of a joined pair (R12). -/
theorem getLsbD_joinHalves (hi lo : Word) (k : Nat) :
    (joinHalves hi lo).getLsbD k = if k < 32 then lo.getLsbD k else hi.getLsbD (k - 32) :=
  BitVec.getLsbD_append

/-- The bits of the lower half. -/
theorem getLsbD_lowHalf (d : DWord) (k : Nat) : (lowHalf d).getLsbD k = (decide (k < 32) && d.getLsbD k) := by
  simp [lowHalf]

/-- The bits of the upper half. -/
theorem getLsbD_highHalf (d : DWord) (k : Nat) :
    (highHalf d).getLsbD k = (decide (k < 32) && d.getLsbD (32 + k)) := by
  simp [highHalf]

/-- The lower half of a joined pair is its low part. -/
theorem lowHalf_joinHalves (hi lo : Word) : lowHalf (joinHalves hi lo) = lo := by
  apply BitVec.eq_of_getLsbD_eq
  intro k hk
  rw [getLsbD_lowHalf, getLsbD_joinHalves, if_pos hk, decide_eq_true hk, Bool.true_and]

/-- The upper half of a joined pair is its high part. -/
theorem highHalf_joinHalves (hi lo : Word) : highHalf (joinHalves hi lo) = hi := by
  apply BitVec.eq_of_getLsbD_eq
  intro k hk
  rw [getLsbD_highHalf, getLsbD_joinHalves, if_neg (by omega), decide_eq_true hk, Bool.true_and,
    Nat.add_sub_cancel_left]

/-- A 64-bit value is its two halves joined (R44). -/
theorem joinHalves_halves (d : DWord) : joinHalves (highHalf d) (lowHalf d) = d := by
  apply BitVec.eq_of_getLsbD_eq
  intro k hk
  rw [getLsbD_joinHalves, getLsbD_lowHalf, getLsbD_highHalf]
  by_cases hk' : k < 32
  · simp only [hk', if_true, decide_true, Bool.true_and]
  · have h1 : k - 32 < 32 := by omega
    have h2 : 32 + (k - 32) = k := by omega
    simp only [hk', if_false, h1, h2, decide_true, Bool.true_and]

end Sys2Proof.Machine
end

