-- ==== Sys2Proof/Laws/PerInstr.lean ====
section
/-! SUPPORT. A statement per command about its encoding: the word fits its row of spec/opcode_table.json. -/

namespace Sys2Proof.Laws.TableFit

/-- The row's mask (spec/opcode_table.json). -/
def maskOf : Instr → CmdWord
  | .sext _ => 0xFE07#16
  | .ldd _ => 0x01FF#16
  | .svd _ => 0x01FF#16
  | .ldf _ => 0x01FF#16
  | .svf _ => 0x01FF#16
  | .isnan => 0xFFFF#16

/-- The row's match (spec/opcode_table.json). -/
def matchOf : Instr → CmdWord
  | .sext _ => 0x0000#16
  | .ldd _ => 0x0001#16
  | .svd _ => 0x0002#16
  | .ldf _ => 0x0003#16
  | .svf _ => 0x0004#16
  | .isnan => 0x0005#16

/-- The command's word, under its row's mask, is the row's match. -/
def Statement (i : Instr) : Prop := encode i &&& maskOf i = matchOf i

/-- A word with only W and OP from its operands, under a mask that clears W. -/
theorem cmdWord_and (op : BitVec 3) (a : BitVec 7) (b : BitVec 6) (ma : BitVec 7) (mb : BitVec 6)
    (mo : BitVec 3) :
    (a ++ b ++ op : BitVec 16) &&& (ma ++ mb ++ mo : BitVec 16) = (a &&& ma) ++ (b &&& mb) ++ (op &&& mo) := by
  apply BitVec.eq_of_getLsbD_eq
  intro k hk
  simp only [BitVec.getLsbD_and, BitVec.getLsbD_append]
  split
  · rfl
  · split <;> rfl

theorem sext (w : Nat) : Statement (.sext w) := by
  have h := cmdWord_and 0#3 0#7 (BitVec.ofNat 6 w) 0x7F#7 0#6 7#3
  simpa [Statement, encode, cmdWord, maskOf, matchOf] using h

theorem ldd (i : Nat) : Statement (.ldd i) := by
  have h := cmdWord_and 1#3 (BitVec.ofNat 7 i) 0#6 0#7 0x3F#6 7#3
  simpa [Statement, encode, cmdWord, maskOf, matchOf] using h

theorem svd (i : Nat) : Statement (.svd i) := by
  have h := cmdWord_and 2#3 (BitVec.ofNat 7 i) 0#6 0#7 0x3F#6 7#3
  simpa [Statement, encode, cmdWord, maskOf, matchOf] using h

theorem ldf (i : Nat) : Statement (.ldf i) := by
  have h := cmdWord_and 3#3 (BitVec.ofNat 7 i) 0#6 0#7 0x3F#6 7#3
  simpa [Statement, encode, cmdWord, maskOf, matchOf] using h

theorem svf (i : Nat) : Statement (.svf i) := by
  have h := cmdWord_and 4#3 (BitVec.ofNat 7 i) 0#6 0#7 0x3F#6 7#3
  simpa [Statement, encode, cmdWord, maskOf, matchOf] using h

theorem isnan : Statement .isnan := by
  unfold Statement
  decide

end Sys2Proof.Laws.TableFit
end

