-- ==== Sys2Proof/Laws/Step.lean ====
section
/-! SUPPORT. What the step and a run of steps can do, once (spec/70_reset_and_hazards.md R162). -/

namespace Sys2Proof.Machine

/-- The step of a state with no fault recorded takes the first input. -/
theorem step_of_inputs (s : State) (e : Event) (rest : List Event) (hm : s.faultMark = none)
    (hi : s.inputs = e :: rest) : step s = takeEvent e { s with inputs := rest } := by
  simp [step, nextStep, hm, hi]

/-- The step of a state with no fault recorded and no input left is an edge without a request. -/
theorem step_of_no_inputs (s : State) (hm : s.faultMark = none) (hi : s.inputs = []) :
    step s = .next (clearDout { s with ports := unrequested s.ports }) := by
  simp only [step, nextStep, hm, hi, clockEdge, unrequested, resetEdge, idleEdge]
  split <;> simp

/-- Only a state with no fault recorded has a next state. -/
theorem faultMark_of_step_next (s t : State) (h : step s = .next t) : s.faultMark = none := by
  cases hm : s.faultMark with
  | none => rfl
  | some m => simp [step, nextStep, hm] at h

/-- One more step of a run. -/
theorem run_succ_next_iff (k : Nat) (s u : State) :
    Host.Core.run core (k + 1) s = .next u ↔ ∃ t, step s = .next t ∧ Host.Core.run core k t = .next u := by
  cases h : step s with
  | next t =>
    have e : Host.Core.run core (k + 1) s = Host.Core.run core k t := by
      have h' : core.step s = .next t := h
      simp only [Host.Core.run, h']
    simp [e]
  | fault r =>
    have e : Host.Core.run core (k + 1) s = .fault r := by
      have h' : core.step s = .fault r := h
      simp only [Host.Core.run, h']
    simp [e]
  | refused r =>
    have e : Host.Core.run core (k + 1) s = .refused r := by
      have h' : core.step s = .refused r := h
      simp only [Host.Core.run, h']
    simp [e]

/-- A relation that is reflexive, transitive and holds across every step holds across every run. -/
theorem run_induction (R : State → State → Prop) (hr : ∀ s, R s s)
    (ht : ∀ s t u, R s t → R t u → R s u) (hs : ∀ s t, step s = .next t → R s t) (k : Nat) :
    ∀ s u, Host.Core.run core k s = .next u → R s u := by
  induction k with
  | zero =>
    intro s u h
    have h' : (Host.Outcome.next s : Result) = .next u := h
    cases h'
    exact hr s
  | succ k ih =>
    intro s u h
    obtain ⟨t, h1, h2⟩ := (run_succ_next_iff k s u).1 h
    exact ht s t u (hs s t h1) (ih t u h2)

end Sys2Proof.Machine
end

