-- ==== Sys2Proof/Tests/Slice0.lean ====
section
/-! SUPPORT. Tests of the model. Expected results are those of spec/95_test_vectors.md (the vector's name stands in each
comment) or of the rule named. Then, for every statement with hypotheses, a witness that something meets them. -/

namespace Sys2Proof.Tests

open Sys2Proof Sys2Proof.Machine Sys2Proof.Safety

/-- A state with this bank, and this word and operand on the ports. -/
def at' (bank : Bank) (cmd : CmdWord) (din : DWord) : State :=
  { State.launch bank [] with ports := { rstN := true, req := true, cmd := cmd, din := din } }

/-- A state with this bank whose next edge requests this word with this operand. -/
def asks (bank : Bank) (cmd : CmdWord) (din : DWord) : State :=
  State.launch bank [.edge { rstN := true, req := true, cmd := cmd, din := din }]

/-- DOUT of a next state. -/
def doutOf : Result → Option DWord
  | .next t => some t.dout
  | .fault _ => none
  | .refused _ => none

/-- The bank of a next state. -/
def bankOf : Result → Option Bank
  | .next t => some t.rbf
  | .fault _ => none
  | .refused _ => none

/-- The fault mark and the bank that a fault leaves. -/
def faultOf : Result → Option (Option FaultMark × Bank)
  | .next _ => none
  | .fault f => some ((faultState f).faultMark, (faultState f).rbf)
  | .refused _ => none

/-- Four lanes, each with a value. -/
def full4 : Bank := [some 0x22222222#32, some 0x11111111#32, some 0x54442D18#32, some 0x400921FB#32]

/-- Four lanes, lane 0 and lane 3 with a value. -/
def gap4 : Bank := [some 0x3F800000#32, none, none, some 5#32]

/-! ### WellFormed: an ill-formed term for each check (R63, R64, R72) -/

theorem test_wf_sext : (Instr.sext 64).wellFormed = false ∧ (Instr.sext 63).wellFormed = true := by decide
theorem test_wf_ldd : (Instr.ldd 128).wellFormed = false ∧ (Instr.ldd 127).wellFormed = true := by decide
theorem test_wf_svd : (Instr.svd 128).wellFormed = false ∧ (Instr.svd 127).wellFormed = true := by decide
theorem test_wf_ldf : (Instr.ldf 128).wellFormed = false ∧ (Instr.ldf 127).wellFormed = true := by decide
theorem test_wf_svf : (Instr.svf 128).wellFormed = false ∧ (Instr.svf 127).wellFormed = true := by decide

/-! ### Decode: words written out from R61 as IDX, W, OP -/

theorem test_decode_sext : decode (0b0000000#7 ++ 0b001000#6 ++ 0b000#3) = .ok (.sext 8) := by rfl
theorem test_decode_ldd : decode (0b0000001#7 ++ 0b000000#6 ++ 0b001#3) = .ok (.ldd 1) := by rfl
theorem test_decode_svd : decode (0b1111111#7 ++ 0b000000#6 ++ 0b010#3) = .ok (.svd 127) := by rfl
theorem test_decode_ldf : decode (0b0000101#7 ++ 0b000000#6 ++ 0b011#3) = .ok (.ldf 5) := by rfl
theorem test_decode_svf : decode (0b0000011#7 ++ 0b000000#6 ++ 0b100#3) = .ok (.svf 3) := by rfl
theorem test_decode_isnan : decode (0b0000000#7 ++ 0b000000#6 ++ 0b101#3) = .ok .isnan := by rfl
/-- E3, E5, E8, E9: reserved fields. -/
theorem test_decode_reserved_field :
    decode 0x0200#16 = .error .reservedField ∧ decode 0x0009#16 = .error .reservedField ∧
    decode 0x000D#16 = .error .reservedField ∧ decode 0x0205#16 = .error .reservedField := ⟨rfl, rfl, rfl, rfl⟩
/-- E10 to E13: reserved operation codes. -/
theorem test_decode_reserved_operation :
    decode 0x0006#16 = .error .reservedOperation ∧ decode 0x0007#16 = .error .reservedOperation ∧
    decode 0xFFFF#16 = .error .reservedOperation ∧ decode 0xFE07#16 = .error .reservedOperation :=
  ⟨rfl, rfl, rfl, rfl⟩
/-- The words of M10 and M14. -/
theorem test_encode : encode (.svf 3) = 0x0604#16 ∧ encode (.ldd 127) = 0xFE01#16 := by decide
theorem test_table_word : decodeTableWord 16 0x0040 = some (.sext 8) ∧ decodeTableWord 16 0x0006 = none := ⟨rfl, rfl⟩

/-! ### One command each -/

/-- S2, S18, S22, S25. -/
theorem test_sext :
    doutOf (exec (.sext 1) (at' [] 0x0008#16 1#64)) = some 0xFFFFFFFF#64 ∧
    doutOf (exec (.sext 32) (at' [] 0x0100#16 0x80000000#64)) = some 0x80000000#64 ∧
    doutOf (exec (.sext 8) (at' [] 0x0040#16 0x17F#64)) = some 0x17F#64 ∧
    doutOf (exec (.sext 8) (at' [] 0x0040#16 0xABCD0092#64)) = some 0xFFFFFF92#64 := by decide
/-- S27, S28. -/
theorem test_sext_bad_width :
    faultOf (step (asks [] 0x0000#16 5#64)) = some (some ⟨.badWidth 0, some 0x0000#16⟩, []) ∧
    faultOf (step (asks [] 0x0108#16 5#64)) = some (some ⟨.badWidth 33, some 0x0108#16⟩, []) := by decide
/-- The worked example of R102; P4b step 2 and M20. -/
theorem test_ldd :
    doutOf (step (asks full4 0x0201#16 0#64)) = some 0x400921FB54442D18#64 ∧
    faultOf (step (asks gap4 0x0001#16 0#64)) = some (some ⟨.unwrittenLane 1, some 0x0001#16⟩, gap4) := by decide
/-- M23: the range check of lane 1 comes before the read of lane 0. -/
theorem test_ldd_bad_index :
    faultOf (step (asks [none] 0x0001#16 0#64)) = some (some ⟨.badIndex 1, some 0x0001#16⟩, [none]) := by decide
/-- M13. -/
theorem test_svd :
    bankOf (step (asks [none, none, some 7#32] 0x0002#16 0x1111111122222222#64)) =
      some [some 0x22222222#32, some 0x11111111#32, some 7#32] := by decide
/-- M15 in small: lane 2 exists and lane 3 does not, and lane 2 is not written. -/
theorem test_svd_bad_index :
    faultOf (step (asks [none, none, none] 0x0202#16 1#64)) =
      some (some ⟨.badIndex 3, some 0x0202#16⟩, [none, none, none]) := by decide
/-- The worked example of R112; an empty lane. -/
theorem test_ldf :
    doutOf (step (asks full4 0x0603#16 0#64)) = some 0x400921FB#64 ∧
    faultOf (step (asks gap4 0x0403#16 0#64)) = some (some ⟨.unwrittenLane 2, some 0x0403#16⟩, gap4) := by decide
/-- M9 in small: DIN[63:32] is ignored, and only lane 1 changes. -/
theorem test_svf :
    bankOf (step (asks [none, none, some 7#32] 0x0204#16 0xFFFFFFFF12345678#64)) =
      some [none, some 0x12345678#32, some 7#32] := by decide
/-- M18 in small. -/
theorem test_svf_bad_index :
    faultOf (step (asks [none] 0x0204#16 0#64)) = some (some ⟨.badIndex 1, some 0x0204#16⟩, [none]) := by decide
/-- N4, N7, N14, N10. -/
theorem test_isnan :
    doutOf (exec .isnan (at' [] 5#16 0xFFF0000000000000#64)) = some 0#64 ∧
    doutOf (exec .isnan (at' [] 5#16 0x7FF0000000000001#64)) = some 1#64 ∧
    doutOf (exec .isnan (at' [] 5#16 0xFFFFFFFFFFFFFFFF#64)) = some 1#64 := ⟨rfl, rfl, rfl⟩
/-- N1, N2, and `+0.0` equal to `-0.0` (R132). -/
theorem test_isnan_zeros :
    doutOf (exec .isnan (at' [] 5#16 0#64)) = some 0#64 ∧
    doutOf (exec .isnan (at' [] 5#16 0x8000000000000000#64)) = some 0#64 ∧
    feq64 0#64 0x8000000000000000#64 = true := by decide
/-- P4d. -/
theorem test_illegal :
    faultOf (step (asks full4 0x0006#16 0#64)) = some (some ⟨.illegalCommand 0x0006#16, some 0x0006#16⟩, full4) := by
  decide

/-! ### The owner, reset, and the first step after reset -/

/-- P5 step 2, and an owner read of a lane with no value (R47). -/
theorem test_owner :
    bankOf (step (State.launch [none, some 1#32] [.hostWrite 0 0xDEADBEEF#32])) =
      some [some 0xDEADBEEF#32, some 1#32] ∧
    faultOf (step (State.launch [none] [.hostRead 0])) = some (some ⟨.unwrittenLane 0, none⟩, [none]) := by decide
/-- R160: a request during reset is not taken. -/
theorem test_reset_edge :
    bankOf (step (State.launch [none, none] [.edge ⟨false, true, 0x0002#16, 7#64⟩])) = some [none, none] := by decide
/-- After reset, `ldd 1` runs as the first command (the model's reset bank, log entries 4 and 5). -/
theorem test_first_command : doutOf (step (State.reset.withFetchWord 16 0x0201)) = some 0#64 := by rfl
/-- R72: a line's text, the line it is, and the step it stands for. -/
theorem test_assemble :
    parseLine ['s', 'v', 'f', ' ', '3', ',', ' ', '0', 'x', 'C', 'a', 'F', 'E'] = some (.svf 3 0xCAFE) ∧
    assemble (.svf 3 0xCAFE) = some (.edge ⟨true, true, 0x0604#16, 0xCAFE#64⟩) := by decide
theorem test_assemble_refuses : assemble (.sext 64 0) = none ∧ assemble (.hostWr 0 0x100000000) = none := by decide

/-! ### Witnesses: each statement's hypotheses are met by something -/

theorem witness_DecodeEncodeRoundTrip : (Instr.sext 63).WellFormed ∧ (Instr.svd 127).WellFormed := by decide
theorem witness_DecodedWordIsItsEncoding : decode 0xFE03#16 = .ok (.ldf 127) := by rfl
theorem witness_EncodedWordLayout : 63 ≤ 63 ∧ 127 ≤ 127 := by decide
/-- A word for each kind of reserved field, and its state. -/
theorem witness_ReservedFieldIsIllegal :
    (0x0200#16).extractLsb' 0 3 = 0#3 ∧ (0x0200#16).extractLsb' 9 7 ≠ 0#7 ∧
    (0x000C#16).extractLsb' 0 3 = 4#3 ∧ (0x000C#16).extractLsb' 3 6 ≠ 0#6 ∧
    (0x0205#16).extractLsb' 0 3 = 5#3 ∧ (0x0205#16).extractLsb' 9 7 ≠ 0#7 ∧
    (asks full4 0x0200#16 0#64).faultMark = none ∧
    (asks full4 0x0200#16 0#64).inputs = [.edge ⟨true, true, 0x0200#16, 0#64⟩] := by decide
theorem witness_ReservedOperationIsIllegal :
    (0xFE07#16).extractLsb' 0 3 = 7#3 ∧ (asks full4 0xFE07#16 0#64).faultMark = none ∧
    (asks full4 0xFE07#16 0#64).inputs = [.edge ⟨true, true, 0xFE07#16, 0#64⟩] := by decide
theorem witness_StepRunsDecodedCommand :
    (asks full4 0x0201#16 0#64).faultMark = none ∧
    (asks full4 0x0201#16 0#64).inputs = [.edge ⟨true, true, 0x0201#16, 0#64⟩] ∧ decode 0x0201#16 = .ok (.ldd 1) :=
  ⟨rfl, rfl, rfl⟩
theorem witness_ResetEdgeTakesNoCommand :
    (State.launch full4 [.edge ⟨false, true, 1#16, 0#64⟩]).inputs = [.edge ⟨false, true, 1#16, 0#64⟩] := by rfl
theorem witness_IdleEdgeClearsDout :
    (State.launch full4 [.edge ⟨true, false, 6#16, 0#64⟩]).inputs = [.edge ⟨true, false, 6#16, 0#64⟩] := by rfl
theorem witness_ExhaustedInputIsIdle :
    (at' full4 1#16 0#64).faultMark = none ∧ (at' full4 1#16 0#64).inputs = [] := ⟨rfl, rfl⟩
theorem witness_NoStepAfterFault :
    (afterCommandFault (.badIndex 5) (at' full4 0x0401#16 0#64)).faultMark =
      some ⟨.badIndex 5, some 0x0401#16⟩ := by rfl
/-- The five clauses: a lane with a value, one beyond the bank, an empty one, and for a write the last lane and the first
beyond the bank. -/
theorem witness_OwnerReadsAndWritesLanes :
    gap4[3]? = some (some 5#32) ∧ gap4.length ≤ 4 ∧ gap4[1]? = some none ∧ 3 < gap4.length ∧
    (State.launch gap4 [.hostRead 3]).inputs = [.hostRead 3] ∧
    (State.launch gap4 [.hostWrite 4 0#32]).inputs = [.hostWrite 4 0#32] ∧
    (State.launch gap4 [.hostRead 3]).faultMark = none := by decide
theorem witness_FaultingCommandMarksAndLeavesLanes : ∃ f, step (asks full4 0x0006#16 0#64) = .fault f := ⟨_, rfl⟩
theorem witness_SextResultBitByBit : 1 ≤ 1 ∧ 32 ≤ 32 := by decide
/-- A word with the sign bit set, one with it clear, and one with no bit above the width. -/
theorem witness_SextBitsAboveWidth :
    (at' [] 0x0040#16 0x1FF#64).ports.din.extractLsb' 0 32 = 0x1FF#32 ∧ (0x1FF#32).getLsbD 7 = true ∧
    (at' [] 0x0040#16 0x17F#64).ports.din.extractLsb' 0 32 = 0x17F#32 ∧ (0x17F#32).getLsbD 7 = false ∧
    (at' [] 0x00F8#16 0x40000000#64).ports.din.extractLsb' 0 32 = 0x40000000#32 ∧
    (0x40000000#32).getLsbD 31 = false := by decide
theorem witness_SextInRangeValue :
    (at' [] 0x0100#16 0x80000000#64).ports.din.extractLsb' 0 32 = 0x80000000#32 ∧ (0x80000000#32).toNat < 2 ^ 32 ∧
    (at' [] 0x0008#16 1#64).ports.din.extractLsb' 0 32 = 1#32 ∧ (1#32).toNat < 2 ^ 1 := by decide
theorem witness_SextSourceProperties :
    (at' [] 0x0060#16 0xFFF#64).ports.din.extractLsb' 0 32 = 0xFFF#32 ∧ (0xFFF#32).toNat < 2 ^ 12 := by decide
/-- Both sides of the equivalence, at the boundary widths; and a fault. -/
theorem witness_SextBadWidth :
    (∃ t, exec (.sext 33) (at' full4 0#16 0#64) = .fault (.badWidth 33 t)) ∧
    (∃ f, exec (.sext 0) (at' full4 0#16 0#64) = .fault f) := ⟨⟨_, rfl⟩, ⟨_, rfl⟩⟩
/-- Two states with different banks and different upper DIN bits. -/
theorem witness_SextReadsOnlyWidthAndWord :
    (at' full4 0x0040#16 0x7F#64).ports.din.extractLsb' 0 32 =
      (at' gap4 0x0040#16 0xFFFFFFFF0000007F#64).ports.din.extractLsb' 0 32 := by decide
theorem witness_LddLoadsDouble :
    (at' full4 0x0201#16 0#64).rbf[2]? = some (some 0x54442D18#32) ∧
    (at' full4 0x0201#16 0#64).rbf[3]? = some (some 0x400921FB#32) := by decide
/-- The three clauses: no lane 5, lane 2 empty, lane 1 empty with lane 0 holding a value. -/
theorem witness_LddFaultPriority :
    gap4.length ≤ 2 * 2 + 1 ∧ (2 * 1 + 1 < gap4.length ∧ gap4[2]? = some none) ∧
    (gap4[0]? = some (some 0x3F800000#32) ∧ gap4[1]? = some none) := by decide
/-- The double register in the last two lanes, both empty. -/
theorem witness_SvdSavesDouble : 2 * 1 + 1 < (at' [none, none, none, none] 0x0202#16 7#64).rbf.length := by decide
/-- Lane 2 exists and lane 3 does not. -/
theorem witness_TwoLaneCommandsCheckRangeFirst :
    (at' [none, none, some 1#32] 0x0202#16 7#64).rbf.length ≤ 2 * 1 + 1 := by decide
theorem witness_LdfLoadsFloat : (at' gap4 0x0603#16 0#64).rbf[3]? = some (some 5#32) := by decide
theorem witness_SvfSavesFloat : 3 < (at' gap4 0x0604#16 1#64).rbf.length := by decide
/-- The three clauses, each at the first index beyond the bank. -/
theorem witness_BadIndexRaised :
    (at' gap4 0#16 0#64).rbf.length ≤ 2 * 2 + 1 ∧ (at' gap4 0#16 0#64).rbf.length ≤ 4 := by decide
theorem witness_UnwrittenLaneRaised :
    (2 * 1 + 1 < gap4.length ∧ gap4[2]? = some none) ∧
    (gap4[2 * 0]? = some (some 0x3F800000#32) ∧ gap4[2 * 0 + 1]? = some none) ∧
    (at' gap4 0x0403#16 0#64).rbf[2]? = some none := by decide
/-- Lanes 0 and 1, and a step between that writes lane 2. -/
theorem witness_DoubleRoundTrip :
    2 * 0 + 1 < (at' full4 0x0002#16 9#64).rbf.length ∧
    2 * 0 ∉ eventWrites (.hostWrite 2 5#32) ∧ 2 * 0 + 1 ∉ eventWrites (.hostWrite 2 5#32) ∧
    (∃ t u, exec (.svd 0) { asks full4 0x0002#16 9#64 with inputs := [.hostWrite 2 5#32] } = .next t ∧
      Host.Core.run core 1 t = .next u) := ⟨by decide, by decide, by decide, _, _, rfl, rfl⟩
theorem witness_FloatRoundTrip :
    3 < (at' full4 0x0604#16 9#64).rbf.length ∧ 3 ∉ eventWrites (.hostWrite 2 5#32) ∧
    (∃ t u, exec (.svf 3) { asks full4 0x0604#16 9#64 with inputs := [.hostWrite 2 5#32] } = .next t ∧
      Host.Core.run core 1 t = .next u) ∧
    (at' full4 0x0804#16 9#64).rbf.length ≤ 4 := ⟨by decide, by decide, ⟨_, _, rfl, rfl⟩, by decide⟩
theorem witness_SvdLaneMapping : 2 * 1 + 1 < (at' gap4 0x0202#16 9#64).rbf.length := by decide
/-- An even and an odd float register, the other lane of the pair holding a value. -/
theorem witness_FloatAliasesHalfOfDouble :
    3 < (at' full4 0x0604#16 9#64).rbf.length ∧ 3 % 2 = 1 ∧
    (at' full4 0x0604#16 9#64).rbf[3 - 1]? = some (some 0x54442D18#32) ∧ 2 % 2 = 0 ∧
    (at' full4 0x0404#16 9#64).rbf[2 + 1]? = some (some 0x400921FB#32) ∧
    (at' full4 0x0604#16 9#64).ports.din.extractLsb' 0 32 = 9#32 := by decide
theorem witness_SvfLeavesOtherHalf :
    (at' full4 0x0404#16 9#64).rbf[2 * 1]? = some (some 0x54442D18#32) ∧
    (at' full4 0x0404#16 9#64).rbf[2 * 1 + 1]? = some (some 0x400921FB#32) ∧
    (at' full4 0x0404#16 9#64).ports.din.extractLsb' 0 32 = 9#32 := by decide
theorem witness_SavedDoubleReadsAsFloats : 2 * 1 + 1 < (at' gap4 0x0202#16 9#64).rbf.length := by decide
theorem witness_CommandsAreIdempotent : ∃ t, exec (.svd 1) (at' gap4 0x0202#16 9#64) = .next t := ⟨_, rfl⟩
/-- Both cases of the answer. -/
theorem witness_IsnanAnswersNanBits :
    ((0x7FF0000000000001#64).extractLsb' 52 11 = 0x7FF#11 ∧ (0x7FF0000000000001#64).extractLsb' 0 52 ≠ 0#52) ∧
    ¬ ((0x7FF0000000000000#64).extractLsb' 52 11 = 0x7FF#11 ∧ (0x7FF0000000000000#64).extractLsb' 0 52 ≠ 0#52) := by
  decide
theorem witness_IsnanDependsOnlyOnDin :
    (at' full4 5#16 1#64).ports.din = (at' gap4 5#16 1#64).ports.din ∧
    (at' full4 5#16 1#64).ports.din.extractLsb' 52 11 = 0#11 ∧
    (at' full4 5#16 1#64).ports.din.extractLsb' 0 52 ≠ 0#52 := by decide
/-- N13: a binary32 NaN. -/
theorem witness_LowHalfBinary32IsNoNan :
    (at' [] 5#16 0x7FC00000#64).ports.din = (0x7FC00000#32).setWidth 64 ∧ isNan32 0x7FC00000#32 = true := by decide
/-- Every command, on one state. -/
theorem witness_CommandFrame :
    (∃ t, exec (.sext 8) (at' full4 0#16 9#64) = .next t) ∧ (∃ t, exec (.ldd 1) (at' full4 0#16 9#64) = .next t) ∧
    (∃ t, exec (.svd 1) (at' full4 0#16 9#64) = .next t) ∧ (∃ t, exec (.ldf 1) (at' full4 0#16 9#64) = .next t) ∧
    (∃ t, exec (.svf 1) (at' full4 0#16 9#64) = .next t) ∧ (∃ t, exec .isnan (at' full4 0#16 9#64) = .next t) :=
  ⟨⟨_, rfl⟩, ⟨_, rfl⟩, ⟨_, rfl⟩, ⟨_, rfl⟩, ⟨_, rfl⟩, ⟨_, rfl⟩⟩
theorem witness_CommandCompletesIffReady :
    commandReady (at' gap4 0#16 0#64) (.svd 1) = true ∧ commandReady (at' gap4 0#16 0#64) (.ldd 1) = false := by decide
theorem witness_DoutUpperBitsZero :
    (∃ t, exec (.sext 32) (at' full4 0#16 0x80000000#64) = .next t) ∧ (∃ t, exec (.ldf 3) (at' full4 0#16 9#64) = .next t) ∧
    (∃ t, exec (.svd 0) (at' full4 0#16 9#64) = .next t) ∧ (∃ t, exec (.svf 3) (at' full4 0#16 9#64) = .next t) ∧
    (∃ t, exec .isnan (at' full4 0#16 0x7FF8000000000000#64) = .next t) :=
  ⟨⟨_, rfl⟩, ⟨_, rfl⟩, ⟨_, rfl⟩, ⟨_, rfl⟩, ⟨_, rfl⟩⟩
theorem witness_IgnoredDinBitsHaveNoEffect :
    (∃ t, exec (.ldd 1) (at' full4 0#16 9#64) = .next t) ∧ (∃ t, exec (.ldf 1) (at' full4 0#16 9#64) = .next t) ∧
    (∃ t, exec (.sext 8) (at' full4 0#16 9#64) = .next t) ∧ (∃ t, exec (.svf 1) (at' full4 0#16 9#64) = .next t) ∧
    (0xFFFFFFFF00000009#64).extractLsb' 0 32 = (at' full4 0#16 9#64).ports.din.extractLsb' 0 32 :=
  ⟨⟨_, rfl⟩, ⟨_, rfl⟩, ⟨_, rfl⟩, ⟨_, rfl⟩, by decide⟩
theorem witness_BankUnusedBySextAndIsnan :
    (∃ t, exec (.sext 8) (at' full4 0#16 9#64) = .next t) ∧ (∃ t, exec .isnan (at' full4 0#16 9#64) = .next t) :=
  ⟨⟨_, rfl⟩, ⟨_, rfl⟩⟩
/-- Two states that differ outside lanes and ports. -/
theorem witness_ResultsDependOnlyOnLanesAndPorts :
    (at' full4 0x0201#16 0#64).rbf = ({ at' full4 0x0201#16 0#64 with dout := 7#64 } : State).rbf ∧
    (at' full4 0x0201#16 0#64).ports = ({ at' full4 0x0201#16 0#64 with dout := 7#64 } : State).ports ∧
    ∃ t, exec (.ldd 1) (at' full4 0x0201#16 0#64) = .next t := ⟨rfl, rfl, _, rfl⟩
theorem witness_StepKeepsInvariant :
    Inv (asks full4 0x0202#16 9#64) ∧ ∃ t, step (asks full4 0x0202#16 9#64) = .next t := ⟨⟨by decide, rfl⟩, _, rfl⟩
theorem witness_StepCompletesIffReady :
    (asks full4 0x0202#16 9#64).faultMark = none ∧
    (asks full4 0x0202#16 9#64).inputs = [.edge ⟨true, true, 0x0202#16, 9#64⟩] ∧
    eventReady (asks full4 0x0202#16 9#64) (.edge ⟨true, true, 0x0202#16, 9#64⟩) = true := by decide
theorem witness_LaneCountNeverChanges : ∃ t, Host.Core.run core 1 (asks full4 0x0202#16 9#64) = .next t := ⟨_, rfl⟩
/-- A lane that held no value and is written, one that stays empty, and one that held a value. -/
theorem witness_LaneHoldsValueIffWritten :
    (∃ t, Host.Core.run core 1 (asks gap4 0x0204#16 9#64) = .next t) ∧
    1 ∈ eventWrites (.edge ⟨true, true, 0x0204#16, 9#64⟩) ∧ laneHolds (asks gap4 0x0204#16 9#64) 1 = false ∧
    laneHolds (asks gap4 0x0204#16 9#64) 3 = true := ⟨⟨_, rfl⟩, by decide, by decide, by decide⟩
theorem witness_RunLeavesUnwrittenLanes :
    (∃ t, Host.Core.run core 1 (asks gap4 0x0204#16 9#64) = .next t) ∧
    3 ∉ eventWrites (.edge ⟨true, true, 0x0204#16, 9#64⟩) := ⟨⟨_, rfl⟩, by decide⟩
/-- A run with a HostWrite, a command, an idle edge and a HostRead; its second and last steps. -/
theorem witness_RunObservesEveryCommandAndRead :
    (∃ t, runFrom gap4 [.hostWrite 1 4#32, .edge ⟨true, true, 0x0001#16, 0#64⟩, .edge ⟨true, false, 6#16, 0#64⟩,
      .hostRead 3] = .next t) ∧
    [Event.hostWrite 1 4#32, .edge ⟨true, true, 0x0001#16, 0#64⟩, .edge ⟨true, false, 6#16, 0#64⟩,
      .hostRead 3][1]? = some (.edge ⟨true, true, 0x0001#16, 0#64⟩) ∧
    [Event.hostWrite 1 4#32, .edge ⟨true, true, 0x0001#16, 0#64⟩, .edge ⟨true, false, 6#16, 0#64⟩,
      .hostRead 3][3]? = some (.hostRead 3) := ⟨⟨_, rfl⟩, rfl, rfl⟩
theorem witness_FullBankRunCompletes :
    (∀ c ∈ full4, c.isSome = true) ∧
    (∀ e ∈ [Event.hostRead 3, .edge ⟨true, true, 0x0201#16, 0#64⟩, .edge ⟨true, false, 6#16, 0#64⟩],
      eventFits full4.length e = true) := by
  refine ⟨by simp [full4], fun e he => ?_⟩
  simp only [List.mem_cons, List.not_mem_nil, or_false] at he
  rcases he with rfl | rfl | rfl <;> rfl

end Sys2Proof.Tests
end

/-! ### What a completing command, owner access, edge and step do

One equivalence per command and per kind of step: when it answers a next state, and which. -/

namespace Sys2Proof.Machine

/-- R82: SEXT completes exactly for widths 1 to 32. -/
theorem exec_sext_next_iff (w : Nat) (s t : State) :
    exec (.sext w) s = .next t ↔
      (w ≠ 0 ∧ w ≤ 32) ∧ t = driveDout (zext64 (signExtendWord w (dinWord s))) s := by
  rw [exec, execSext, finishCommand_next_iff]
  by_cases hw : w = 0 ∨ 32 < w
  · rw [if_pos hw]
    simp only [reduceCtorEq, false_iff]
    omega
  · rw [if_neg hw, Except.ok.injEq, and_iff_right (by omega), eq_comm]

/-- R102: LDD completes exactly when both lanes hold values. -/
theorem exec_ldd_next_iff (i : Nat) (s t : State) :
    exec (.ldd i) s = .next t ↔
      ∃ lo hi, s.rbf[2 * i]? = some (some lo) ∧ s.rbf[2 * i + 1]? = some (some hi) ∧
        t = driveDout (joinHalves hi lo) s := by
  rw [exec, execLdd, finishCommand_next_iff, loadToDout_ok_iff]
  simp only [doubleRead_ok_iff]
  constructor
  · rintro ⟨d, ⟨lo, hi, hlo, hhi, rfl⟩, rfl⟩
    exact ⟨lo, hi, hlo, hhi, rfl⟩
  · rintro ⟨lo, hi, hlo, hhi, rfl⟩
    exact ⟨_, ⟨lo, hi, hlo, hhi, rfl⟩, rfl⟩

/-- R104: SVD completes exactly when both lanes exist. -/
theorem exec_svd_next_iff (i : Nat) (s t : State) :
    exec (.svd i) s = .next t ↔
      2 * i + 1 < s.rbf.length ∧
        t = driveDout 0 (setLane (2 * i + 1) (highHalf (dinDouble s))
          (setLane (2 * i) (lowHalf (dinDouble s)) s)) := by
  rw [exec, execSvd, finishCommand_next_iff, saveThenZero_ok_iff]
  simp only [doubleWrite_ok_iff, and_assoc, exists_and_left, exists_eq_left]

/-- R112: LDF completes exactly when its lane holds a value. -/
theorem exec_ldf_next_iff (i : Nat) (s t : State) :
    exec (.ldf i) s = .next t ↔ ∃ v, s.rbf[i]? = some (some v) ∧ t = driveDout (zext64 v) s := by
  rw [exec, execLdf, finishCommand_next_iff, loadToDout_ok_iff]
  simp only [floatRead, ← laneRead_ok_iff]
  cases laneRead i s <;> simp [Except.map]

/-- R114: SVF completes exactly when its lane exists. -/
theorem exec_svf_next_iff (i : Nat) (s t : State) :
    exec (.svf i) s = .next t ↔ i < s.rbf.length ∧ t = driveDout 0 (setLane i (dinWord s) s) := by
  rw [exec, execSvf, finishCommand_next_iff, saveThenZero_ok_iff]
  simp only [floatWrite, laneWrite_ok_iff, and_assoc, exists_and_left, exists_eq_left]

/-- R131: ISNAN always completes. -/
theorem exec_isnan_next_iff (s t : State) :
    exec .isnan s = .next t ↔
      t = driveDout (if feq64 (dinDouble s) (dinDouble s) then 0#64 else 1#64) s := by
  rw [exec, execIsnan, finishCommand_next_iff, Except.ok.injEq, eq_comm]

/-- R47: HostRead completes exactly when its lane holds a value. -/
theorem hostRead_next_iff (l : Nat) (s t : State) :
    hostRead l s = .next t ↔ ∃ v, s.rbf[l]? = some (some v) ∧ t = observeLane l v s := by
  rw [hostRead, finishOwner_next_iff]
  simp only [← laneRead_ok_iff]
  cases laneRead l s <;> simp [Except.map, eq_comm]

/-- R47: HostWrite completes exactly when its lane exists. -/
theorem hostWrite_next_iff (l : Nat) (v : Word) (s t : State) :
    hostWrite l v s = .next t ↔ l < s.rbf.length ∧ t = setLane l v s := by
  rw [hostWrite, finishOwner_next_iff, laneWrite_ok_iff]

/-- R69, R143: an edge with a request completes exactly when its word decodes to a command that does. -/
theorem commandEdge_next_iff (s t : State) :
    commandEdge s = .next t ↔ ∃ i, decode s.ports.cmd = .ok i ∧ exec i s = .next t := by
  rw [commandEdge]
  cases decode s.ports.cmd with
  | error r => simp only [raise, reduceCtorEq, false_and, exists_false]
  | ok i => simp only [Except.ok.injEq, exists_eq_left']

/-- R160, R167: an edge out of reset with a request takes a command; every other edge only clears DOUT. -/
theorem clockEdge_next_iff (p : Ports) (s t : State) :
    clockEdge p s = .next t ↔
      ((p.rstN = false ∨ p.req = false) ∧ t = clearDout { s with ports := p }) ∨
      (p.rstN = true ∧ p.req = true ∧
        ∃ i, decode p.cmd = .ok i ∧ exec i { s with ports := p } = .next t) := by
  rw [clockEdge]
  cases hr : p.rstN with
  | false => simp [resetEdge, eq_comm (a := t)]
  | true =>
    cases hq : p.req with
    | false => simp [idleEdge, eq_comm (a := t)]
    | true => simp [commandEdge_next_iff]

/-- R162, R141: only an unfaulted state has a next state; it is the one that the first input gives, or that an edge
without a request gives when no input is left. -/
theorem step_next_iff (s t : State) :
    step s = .next t ↔ s.faultMark = none ∧
      ((s.inputs = [] ∧ t = clearDout { s with ports := unrequested s.ports }) ∨
        ∃ e rest, s.inputs = e :: rest ∧ takeEvent e { s with inputs := rest } = .next t) := by
  cases hm : s.faultMark with
  | some m => simp [step, nextStep, hm]
  | none =>
    cases hi : s.inputs with
    | nil => simp [step_of_no_inputs s hm hi, hm, hi, eq_comm (a := t)]
    | cons e rest => simp [step_of_inputs s e rest hm hi, hm]

/-! ### What the bank's owner can rely on: the lane count and the fault mark -/

/-- `t` has as many lanes as `s` and the same fault mark. -/
def SameForm (s t : State) : Prop := t.rbf.length = s.rbf.length ∧ t.faultMark = s.faultMark

/-- R26, R141: a command that completes keeps the lane count and the fault mark. -/
theorem sameForm_of_exec_next (i : Instr) (s t : State) (h : exec i s = .next t) : SameForm s t := by
  cases i with
  | sext w =>
    obtain ⟨-, rfl⟩ := (exec_sext_next_iff w s t).1 h
    exact ⟨rfl, rfl⟩
  | ldd i =>
    obtain ⟨_, _, -, -, rfl⟩ := (exec_ldd_next_iff i s t).1 h
    exact ⟨rfl, rfl⟩
  | svd i =>
    obtain ⟨-, rfl⟩ := (exec_svd_next_iff i s t).1 h
    simp [SameForm]
  | ldf i =>
    obtain ⟨_, -, rfl⟩ := (exec_ldf_next_iff i s t).1 h
    exact ⟨rfl, rfl⟩
  | svf i =>
    obtain ⟨-, rfl⟩ := (exec_svf_next_iff i s t).1 h
    simp [SameForm]
  | isnan =>
    obtain rfl := (exec_isnan_next_iff s t).1 h
    exact ⟨rfl, rfl⟩

/-- R26, R141: a step of a run that completes keeps the lane count and the fault mark. -/
theorem sameForm_of_takeEvent_next (e : Event) (s t : State) (h : takeEvent e s = .next t) : SameForm s t := by
  cases e with
  | edge p =>
    obtain ⟨-, rfl⟩ | ⟨-, -, i, -, hx⟩ := (clockEdge_next_iff p s t).1 h
    · exact ⟨rfl, rfl⟩
    · exact sameForm_of_exec_next i { s with ports := p } t hx
  | hostRead l =>
    obtain ⟨_, -, rfl⟩ := (hostRead_next_iff l s t).1 h
    exact ⟨rfl, rfl⟩
  | hostWrite l v =>
    obtain ⟨-, rfl⟩ := (hostWrite_next_iff l v s t).1 h
    exact ⟨setLane_length l v s, rfl⟩

/-- R26, R141: `step` keeps the lane count and the fault mark. -/
theorem sameForm_of_step_next (s t : State) (h : step s = .next t) : SameForm s t := by
  obtain ⟨-, ⟨-, rfl⟩ | ⟨e, rest, -, he⟩⟩ := (step_next_iff s t).1 h
  · exact ⟨rfl, rfl⟩
  · exact sameForm_of_takeEvent_next e { s with inputs := rest } t he

/-- The invariant speaks of the lane count and the fault mark only. -/
theorem SameForm.inv {s t : State} (h : SameForm s t) (hs : Safety.Inv s) : Safety.Inv t := by
  obtain ⟨hlen, hmark⟩ := h
  obtain ⟨hwf, hnone⟩ := hs
  refine ⟨?_, hmark.trans hnone⟩
  rw [Bank.wf, hlen]
  exact hwf

/-! ### The obligations of spec/00_scope.md -/

/-- Settles O52: no step that answers a next state changes the lane count or the fault mark. -/
theorem stepKeepsInvariant : Obligations.StepKeepsInvariant := by
  unfold Obligations.StepKeepsInvariant
  intro s t hs h
  exact (sameForm_of_step_next s t h).inv hs

/-- Settles O18: the reset bank has its form, and a launch records no fault. -/
theorem invHoldsAtReset : Obligations.InvHoldsAtReset := by
  unfold Obligations.InvHoldsAtReset
  exact ⟨reset_bank_wf, launch_faultMark _ _⟩

/-- Settles O50: when SEXT and ISNAN complete, and the value they drive on DOUT, are both given by the operand and DIN. -/
theorem bankUnusedBySextAndIsnan : Obligations.BankUnusedBySextAndIsnan := by
  unfold Obligations.BankUnusedBySextAndIsnan
  rintro i s b t (rfl | ⟨w, rfl⟩) h
  · obtain rfl := (exec_isnan_next_iff s t).1 h
    exact ⟨driveDout_rbf _ _, (exec_isnan_next_iff { s with rbf := b } _).2 rfl⟩
  · obtain ⟨hw, rfl⟩ := (exec_sext_next_iff w s t).1 h
    exact ⟨driveDout_rbf _ _, (exec_sext_next_iff w { s with rbf := b } _).2 ⟨hw, rfl⟩⟩

end Sys2Proof.Machine

/-! ### Which lanes a completing command, step and run write, and which they leave

Lanes written and lanes left alone are tracked by one relation, `FillsLanes`, which composes along a run. -/

namespace Sys2Proof.Machine

open Safety

/-- `t` holds a value in each of the lanes `ws`, and every other lane of `s` as it was. -/
def FillsLanes (ws : List Nat) (s t : State) : Prop :=
  (∀ l, l ∉ ws → t.rbf[l]? = s.rbf[l]?) ∧ ∀ l ∈ ws, laneHolds t l = true

/-- Whether a lane holds a value is decided by its cell. -/
theorem laneHolds_congr {s t : State} {l : Nat} (h : t.rbf[l]? = s.rbf[l]?) : laneHolds t l = laneHolds s l := by
  rw [laneHolds, h, laneHolds]

/-- A state with the same bank has had no lane written. -/
theorem fillsLanes_nil {s t : State} (h : t.rbf = s.rbf) : FillsLanes [] s t :=
  ⟨fun l _ => by rw [h], fun _ hl => absurd hl List.not_mem_nil⟩

/-- R42, R50: a write of an existing lane fills that lane. -/
theorem fillsLanes_setLane (l : Nat) (v : Word) (s : State) (h : l < s.rbf.length) :
    FillsLanes [l] s (setLane l v s) := by
  refine ⟨fun k hk => getElem?_setLane_other l k v s (List.ne_of_not_mem_cons hk), fun k hk => ?_⟩
  obtain rfl := List.mem_singleton.1 hk
  simp [laneHolds, h]

/-- The lanes filled one after the other are filled in the end: a lane written first is kept or written again. -/
theorem FillsLanes.trans {ws ws' : List Nat} {s t u : State} (h : FillsLanes ws s t) (h' : FillsLanes ws' t u) :
    FillsLanes (ws ++ ws') s u := by
  obtain ⟨hkeep, hfill⟩ := h
  obtain ⟨hkeep', hfill'⟩ := h'
  refine ⟨fun l hl => ?_, fun l hl => ?_⟩
  · rw [List.mem_append, not_or] at hl
    exact (hkeep' l hl.2).trans (hkeep l hl.1)
  · by_cases hl' : l ∈ ws'
    · exact hfill' l hl'
    · rw [laneHolds_congr (hkeep' l hl')]
      exact hfill l ((List.mem_append.1 hl).resolve_right hl')

/-- R27: a lane holds a value afterwards exactly when it held one before or was filled. -/
theorem FillsLanes.laneHolds_iff {ws : List Nat} {s t : State} (h : FillsLanes ws s t) (l : Nat) :
    laneHolds t l = true ↔ laneHolds s l = true ∨ l ∈ ws := by
  obtain ⟨hkeep, hfill⟩ := h
  by_cases hl : l ∈ ws
  · simp only [hfill l hl, hl, or_true]
  · rw [laneHolds_congr (hkeep l hl), or_iff_left hl]

/-- R48: a command that completes fills the lanes it writes. -/
theorem fillsLanes_of_exec_next (i : Instr) (s t : State) (h : exec i s = .next t) :
    FillsLanes (lanesWritten i) s t := by
  cases i with
  | sext w =>
    obtain ⟨-, rfl⟩ := (exec_sext_next_iff w s t).1 h
    exact fillsLanes_nil rfl
  | ldd i =>
    obtain ⟨_, _, -, -, rfl⟩ := (exec_ldd_next_iff i s t).1 h
    exact fillsLanes_nil rfl
  | svd i =>
    obtain ⟨hi, rfl⟩ := (exec_svd_next_iff i s t).1 h
    have hlow := fillsLanes_setLane (2 * i) (lowHalf (dinDouble s)) s (by omega)
    exact hlow.trans (fillsLanes_setLane (2 * i + 1) (highHalf (dinDouble s)) _ ((setLane_length _ _ _).symm ▸ hi))
  | ldf i =>
    obtain ⟨_, -, rfl⟩ := (exec_ldf_next_iff i s t).1 h
    exact fillsLanes_nil rfl
  | svf i =>
    obtain ⟨hi, rfl⟩ := (exec_svf_next_iff i s t).1 h
    exact fillsLanes_setLane i (dinWord s) s hi
  | isnan =>
    obtain rfl := (exec_isnan_next_iff s t).1 h
    exact fillsLanes_nil rfl

/-- R66, R162: beside the bank, a command that completes only drives DOUT. -/
theorem eq_driveDout_of_exec_next (i : Instr) (s t : State) (h : exec i s = .next t) :
    t = driveDout t.dout { s with rbf := t.rbf } := by
  cases i with
  | sext w =>
    obtain ⟨-, rfl⟩ := (exec_sext_next_iff w s t).1 h
    rfl
  | ldd i =>
    obtain ⟨_, _, -, -, rfl⟩ := (exec_ldd_next_iff i s t).1 h
    rfl
  | svd i =>
    obtain ⟨-, rfl⟩ := (exec_svd_next_iff i s t).1 h
    rfl
  | ldf i =>
    obtain ⟨_, -, rfl⟩ := (exec_ldf_next_iff i s t).1 h
    rfl
  | svf i =>
    obtain ⟨-, rfl⟩ := (exec_svf_next_iff i s t).1 h
    rfl
  | isnan =>
    obtain rfl := (exec_isnan_next_iff s t).1 h
    rfl

/-- A command that completes consumes no step of the run. -/
theorem inputs_of_exec_next (i : Instr) (s t : State) (h : exec i s = .next t) : t.inputs = s.inputs := by
  rw [eq_driveDout_of_exec_next i s t h, driveDout_inputs]

/-- R167, R160: an edge in reset or without a request takes no command. -/
theorem commandAt_eq_none {p : Ports} (h : p.rstN = false ∨ p.req = false) : commandAt p = none := by
  rcases h with h | h <;> simp [commandAt, h]

/-- R69: an edge with a request takes the command that its word decodes to. -/
theorem commandAt_eq_some {p : Ports} {i : Instr} (hr : p.rstN = true) (hq : p.req = true)
    (hd : decode p.cmd = .ok i) : commandAt p = some i := by
  simp [commandAt, hr, hq, hd, Except.toOption]

/-- R47, R48: a step of a run that completes fills the lanes it writes. -/
theorem fillsLanes_of_takeEvent_next (e : Event) (s t : State) (h : takeEvent e s = .next t) :
    FillsLanes (eventWrites e) s t := by
  cases e with
  | edge p =>
    obtain ⟨hp, rfl⟩ | ⟨hr, hq, i, hd, hx⟩ := (clockEdge_next_iff p s t).1 h
    · rw [eventWrites, commandAt_eq_none hp]
      exact fillsLanes_nil rfl
    · rw [eventWrites, commandAt_eq_some hr hq hd]
      exact fillsLanes_of_exec_next i { s with ports := p } t hx
  | hostRead l =>
    obtain ⟨_, -, rfl⟩ := (hostRead_next_iff l s t).1 h
    exact fillsLanes_nil rfl
  | hostWrite l v =>
    obtain ⟨hl, rfl⟩ := (hostWrite_next_iff l v s t).1 h
    exact fillsLanes_setLane l v s hl

/-- Taking a step changes nothing of the steps that are still to come. -/
theorem inputs_of_takeEvent_next (e : Event) (s t : State) (h : takeEvent e s = .next t) :
    t.inputs = s.inputs := by
  cases e with
  | edge p =>
    obtain ⟨-, rfl⟩ | ⟨-, -, i, -, hx⟩ := (clockEdge_next_iff p s t).1 h
    · rfl
    · exact inputs_of_exec_next i { s with ports := p } t hx
  | hostRead l =>
    obtain ⟨_, -, rfl⟩ := (hostRead_next_iff l s t).1 h
    rfl
  | hostWrite l v =>
    obtain ⟨-, rfl⟩ := (hostWrite_next_iff l v s t).1 h
    rfl

/-- R27, R50: a run fills the lanes that its steps write; past its last input every edge is idle and writes none. -/
theorem fillsLanes_of_run_next (k : Nat) (s u : State) (h : Host.Core.run core k s = .next u) :
    FillsLanes ((s.inputs.take k).flatMap eventWrites) s u := by
  induction k generalizing s with
  | zero =>
    cases (h : (Host.Outcome.next s : Result) = .next u)
    exact fillsLanes_nil rfl
  | succ k ih =>
    obtain ⟨t, hst, htu⟩ := (run_succ_next_iff k s u).1 h
    have hrun := ih t htu
    obtain ⟨-, ⟨hi, rfl⟩ | ⟨e, rest, hi, he⟩⟩ := (step_next_iff s t).1 hst
    · have hidle := (fillsLanes_nil rfl).trans (s := s) hrun
      simpa [hi] using hidle
    · rw [inputs_of_takeEvent_next e { s with inputs := rest } t he] at hrun
      rw [hi, List.take_succ_cons, List.flatMap_cons]
      exact (fillsLanes_of_takeEvent_next e { s with inputs := rest } t he).trans hrun

/-! ### The obligations of spec/10_state.md -/

/-- Settles O54: every step keeps the lane count, and so does every run. -/
theorem laneCountNeverChanges : Obligations.LaneCountNeverChanges := by
  unfold Obligations.LaneCountNeverChanges
  exact run_induction (fun s t => t.rbf.length = s.rbf.length) (fun _ => rfl)
    (fun _ _ _ hst htu => htu.trans hst) (fun s t h => (sameForm_of_step_next s t h).1)

/-- Settles O55: a run fills exactly the lanes that its steps write. -/
theorem laneHoldsValueIffWritten : Obligations.LaneHoldsValueIffWritten := by
  unfold Obligations.LaneHoldsValueIffWritten
  intro k s t h l _
  rw [(fillsLanes_of_run_next k s t h).laneHolds_iff l, List.mem_flatMap]

/-- Settles O39: SVD puts the halves of DIN into lanes `2*i` and `2*i+1`, and LDF reads one lane. -/
theorem savedDoubleReadsAsFloats : Obligations.SavedDoubleReadsAsFloats := by
  unfold Obligations.SavedDoubleReadsAsFloats
  intro i s hi
  refine ⟨_, (exec_svd_next_iff i s _).2 ⟨hi, rfl⟩, ?_, ?_⟩
  · refine ⟨_, (exec_ldf_next_iff (2 * i) _ _).2 ⟨lowHalf (dinDouble s), ?_, rfl⟩, rfl⟩
    rw [driveDout_rbf, getElem?_setLane_other _ _ _ _ (by omega), ← laneRead_ok_iff]
    exact laneRead_setLane_same _ _ s (by omega)
  · refine ⟨_, (exec_ldf_next_iff (2 * i + 1) _ _).2 ⟨highHalf (dinDouble s), ?_, rfl⟩, rfl⟩
    rw [driveDout_rbf, ← laneRead_ok_iff]
    exact laneRead_setLane_same _ _ _ ((setLane_length _ _ _).symm ▸ hi)

/-- Settles O51: when a command completes, the lanes it writes and the value it drives on DOUT are given by the bank and
DIN. -/
theorem resultsDependOnlyOnLanesAndPorts : Obligations.ResultsDependOnlyOnLanesAndPorts := by
  unfold Obligations.ResultsDependOnlyOnLanesAndPorts
  rintro i ⟨b, _, _, p, _, _, _⟩ ⟨_, _, _, _, _, _, _⟩ t rfl rfl h
  cases i with
  | sext w =>
    obtain ⟨hw, rfl⟩ := (exec_sext_next_iff w _ t).1 h
    exact ⟨_, (exec_sext_next_iff w _ _).2 ⟨hw, rfl⟩, rfl, rfl⟩
  | ldd i =>
    obtain ⟨lo, hi, hlo, hhi, rfl⟩ := (exec_ldd_next_iff i _ t).1 h
    exact ⟨_, (exec_ldd_next_iff i _ _).2 ⟨lo, hi, hlo, hhi, rfl⟩, rfl, rfl⟩
  | svd i =>
    obtain ⟨hi, rfl⟩ := (exec_svd_next_iff i _ t).1 h
    exact ⟨_, (exec_svd_next_iff i _ _).2 ⟨hi, rfl⟩, rfl, rfl⟩
  | ldf i =>
    obtain ⟨v, hv, rfl⟩ := (exec_ldf_next_iff i _ t).1 h
    exact ⟨_, (exec_ldf_next_iff i _ _).2 ⟨v, hv, rfl⟩, rfl, rfl⟩
  | svf i =>
    obtain ⟨hi, rfl⟩ := (exec_svf_next_iff i _ t).1 h
    exact ⟨_, (exec_svf_next_iff i _ _).2 ⟨hi, rfl⟩, rfl, rfl⟩
  | isnan =>
    obtain rfl := (exec_isnan_next_iff _ t).1 h
    exact ⟨_, (exec_isnan_next_iff _ _).2 rfl, rfl, rfl⟩

/-- Settles O17: the fields of a launch, and of reset, which is one. -/
theorem launchValues : Obligations.LaunchValues := by
  unfold Obligations.LaunchValues
  exact ⟨fun b es => ⟨launch_rbf b es, launch_faultMark b es, launch_dout b es⟩, launch_faultMark _ _,
    launch_dout _ _⟩

end Sys2Proof.Machine

/-! ### When commands, steps and runs complete, and when they fault

Completion of a command or a step, as its caller's duties; then progress and preservation for a bank full of values. -/

namespace Sys2Proof.Machine

open Safety

/-- A lane that holds a value, by the value it holds. -/
theorem laneHolds_iff (s : State) (l : Nat) : laneHolds s l = true ↔ ∃ v, s.rbf[l]? = some (some v) := by
  rw [laneHolds, Option.isSome_iff_exists]
  simp only [Option.join_eq_some_iff]

/-- R163, R165: a command completes exactly when its caller has kept its duties. -/
theorem exec_completes_iff (i : Instr) (s : State) : (∃ t, exec i s = .next t) ↔ commandReady s i = true := by
  cases i with
  | sext w =>
    simp only [exec_sext_next_iff, exists_and_left, exists_eq, and_true, commandReady, Bool.and_eq_true,
      decide_eq_true_eq, Nat.one_le_iff_ne_zero]
  | ldd i =>
    simp only [exec_ldd_next_iff, commandReady, Bool.and_eq_true, laneHolds_iff]
    constructor
    · rintro ⟨_, lo, hi, hlo, hhi, -⟩
      exact ⟨⟨lo, hlo⟩, hi, hhi⟩
    · rintro ⟨⟨lo, hlo⟩, hi, hhi⟩
      exact ⟨_, lo, hi, hlo, hhi, rfl⟩
  | svd i => simp only [exec_svd_next_iff, exists_and_left, exists_eq, and_true, commandReady, decide_eq_true_eq]
  | ldf i =>
    simp only [exec_ldf_next_iff, commandReady, laneHolds_iff]
    constructor
    · rintro ⟨_, v, hv, -⟩
      exact ⟨v, hv⟩
    · rintro ⟨v, hv⟩
      exact ⟨_, v, hv, rfl⟩
  | svf i => simp only [exec_svf_next_iff, exists_and_left, exists_eq, and_true, commandReady, decide_eq_true_eq]
  | isnan => simp only [exec_isnan_next_iff, exists_eq, commandReady]

/-- The duties for a command speak of the bank only, not of the sampled ports. -/
theorem commandReady_ports (p : Ports) (s : State) (i : Instr) :
    commandReady { s with ports := p } i = commandReady s i := by
  cases i <;> rfl

/-- R163, R165, R47: a step of a run completes exactly when its caller has kept the duties for it. -/
theorem takeEvent_completes_iff (e : Event) (s : State) :
    (∃ t, takeEvent e s = .next t) ↔ eventReady s e = true := by
  cases e with
  | edge p =>
    simp only [takeEvent, clockEdge_next_iff, eventReady]
    cases hr : p.rstN with
    | false => simp
    | true =>
      cases hq : p.req with
      | false => simp
      | true =>
        cases hd : decode p.cmd with
        | error r => simp
        | ok i => simp [exec_completes_iff, commandReady_ports]
  | hostRead l =>
    simp only [takeEvent, hostRead_next_iff, eventReady, laneHolds_iff]
    constructor
    · rintro ⟨_, v, hv, -⟩
      exact ⟨v, hv⟩
    · rintro ⟨v, hv⟩
      exact ⟨_, v, hv, rfl⟩
  | hostWrite l v =>
    simp only [takeEvent, hostWrite_next_iff, exists_and_left, exists_eq, and_true, eventReady, decide_eq_true_eq]

/-- If every state with `P` has a next state, again with `P`, then every run from a state with `P` completes. -/
theorem run_completes_of_progress {P : State → Prop} (hP : ∀ s, P s → ∃ t, step s = .next t ∧ P t) (k : Nat) :
    ∀ s, P s → ∃ u, Host.Core.run core k s = .next u := by
  induction k with
  | zero => exact fun s _ => ⟨s, rfl⟩
  | succ k ih =>
    intro s hs
    obtain ⟨t, hst, ht⟩ := hP s hs
    obtain ⟨u, htu⟩ := ih t ht
    exact ⟨u, (run_succ_next_iff k s u).2 ⟨t, hst, htu⟩⟩

/-- Every lane of the bank holds a value. -/
def BankFull (s : State) : Prop := ∀ l, l < s.rbf.length → laneHolds s l = true

/-- A bank whose every cell is a value is full at launch. -/
theorem bankFull_launch {bank : Bank} (events : List Event) (h : ∀ c ∈ bank, c.isSome = true) :
    BankFull (State.launch bank events) := by
  intro l hl
  rw [launch_rbf] at hl
  obtain ⟨v, hv⟩ := Option.isSome_iff_exists.1 (h _ (List.getElem_mem hl))
  exact (laneHolds_iff _ l).2 ⟨v, by rw [launch_rbf, List.getElem?_eq_getElem hl, hv]⟩

/-- R27: no step of a run empties a lane or adds one, so a full bank stays full. -/
theorem BankFull.of_takeEvent_next {e : Event} {s t : State} (hs : BankFull s) (h : takeEvent e s = .next t) :
    BankFull t := by
  intro l hl
  rw [(sameForm_of_takeEvent_next e s t h).1] at hl
  exact ((fillsLanes_of_takeEvent_next e s t h).laneHolds_iff l).2 (.inl (hs l hl))

/-- R52: a full bank with the lanes that a command needs serves it, if its width is legal. -/
theorem BankFull.commandReady_eq_true {s : State} (hs : BankFull s) {i : Instr} (hw : widthLegal i = true)
    (hn : lanesNeeded i ≤ s.rbf.length) : commandReady s i = true := by
  cases i with
  | sext w => exact hw
  | ldd i =>
    rw [lanesNeeded] at hn
    exact Bool.and_eq_true_iff.2 ⟨hs _ (by omega), hs _ (by omega)⟩
  | svd i => exact decide_eq_true hn
  | ldf i => exact hs i hn
  | svf i => exact decide_eq_true hn
  | isnan => rfl

/-- R52, R163: a full bank serves every step of a run that fits its lane count. -/
theorem BankFull.eventReady_eq_true {s : State} (hs : BankFull s) {e : Event} (h : eventFits s.rbf.length e = true) :
    eventReady s e = true := by
  cases e with
  | edge p =>
    rw [eventReady]
    rw [eventFits] at h
    cases hq : p.rstN && p.req with
    | false => rfl
    | true =>
      cases hd : decode p.cmd with
      | error r => simp [hq, hd] at h
      | ok i =>
        simp only [hq, hd, if_true, Bool.and_eq_true, decide_eq_true_eq] at h
        exact hs.commandReady_eq_true h.1 h.2
  | hostRead l => exact hs l (of_decide_eq_true h)
  | hostWrite l v => exact h

/-- What a run within a full bank keeps: a full bank, no fault recorded, and steps to come that fit the bank. -/
structure RunFits (s : State) : Prop where
  full : BankFull s
  unfaulted : s.faultMark = none
  fits : ∀ e ∈ s.inputs, eventFits s.rbf.length e = true

/-- A state whose steps to come fit its full bank has a next state, and that state is such a state again. -/
theorem RunFits.progress (s : State) (hs : RunFits s) : ∃ t, step s = .next t ∧ RunFits t := by
  obtain ⟨hfull, hmark, hfits⟩ := hs
  cases hi : s.inputs with
  | nil => exact ⟨_, step_of_no_inputs s hmark hi, hfull, hmark, hfits⟩
  | cons e rest =>
    rw [hi, List.forall_mem_cons] at hfits
    obtain ⟨he, hrest⟩ := hfits
    have hfull' : BankFull { s with inputs := rest } := hfull
    obtain ⟨t, ht⟩ := (takeEvent_completes_iff e { s with inputs := rest }).2 (hfull'.eventReady_eq_true he)
    obtain ⟨hlen, hmark'⟩ := sameForm_of_takeEvent_next e _ t ht
    refine ⟨t, (step_of_inputs s e rest hmark hi).trans ht, hfull'.of_takeEvent_next ht, hmark'.trans hmark, ?_⟩
    rw [inputs_of_takeEvent_next e _ t ht, hlen]
    exact hrest

/-! ### What a fault of LDD, SVD and the owner answers -/

/-- R102, R141: LDD faults exactly when its double read does. -/
theorem exec_ldd_fault_iff (i : Nat) (s : State) (f : Fault) :
    exec (.ldd i) s = .fault f ↔ ∃ r, doubleRead i s = .error r ∧ f = toFault r (afterCommandFault r s) := by
  rw [exec, execLdd, finishCommand_fault_iff]
  simp only [loadToDout_error_iff]

/-- R104, R141: SVD faults exactly when lane `2*i+1` does not exist. -/
theorem exec_svd_fault_iff (i : Nat) (s : State) (f : Fault) :
    exec (.svd i) s = .fault f ↔
      s.rbf.length ≤ 2 * i + 1 ∧ f = .badIndex (2 * i + 1) (afterCommandFault (.badIndex (2 * i + 1)) s) := by
  rw [exec, execSvd, finishCommand_fault_iff]
  simp only [saveThenZero_error_iff, doubleWrite_error_iff, and_assoc, exists_and_left, exists_eq_left, toFault]

/-- R47: HostRead faults exactly when its lane read does. -/
theorem hostRead_fault_iff (l : Nat) (s : State) (f : Fault) :
    hostRead l s = .fault f ↔ ∃ r, laneRead l s = .error r ∧ f = toFault r (afterOwnerFault r s) := by
  rw [hostRead, finishOwner_fault_iff]
  cases laneRead l s <;> simp [Except.map]

/-- R47: HostWrite faults exactly when its lane does not exist. -/
theorem hostWrite_fault_iff (l : Nat) (v : Word) (s : State) (f : Fault) :
    hostWrite l v s = .fault f ↔
      s.rbf.length ≤ l ∧ f = .badIndex l (afterOwnerFault (.badIndex l) s) := by
  rw [hostWrite, finishOwner_fault_iff]
  simp only [laneWrite_error_iff, and_assoc, exists_and_left, exists_eq_left, toFault]

/-! ### Running a command twice -/

/-- R50: writing to a lane the value that it holds changes nothing. -/
theorem setLane_eq_self {l : Nat} {v : Word} {s : State} (h : s.rbf[l]? = some (some v)) : setLane l v s = s := by
  obtain ⟨hl, hv⟩ := List.getElem?_eq_some_iff.1 h
  rw [setLane, ← hv, List.set_getElem_self]

/-- R48: a command that writes no lane leaves the bank. -/
theorem rbf_of_exec_next {i : Instr} {s t : State} (h : exec i s = .next t) (hw : lanesWritten i = []) :
    t.rbf = s.rbf := by
  obtain ⟨hkeep, -⟩ := fillsLanes_of_exec_next i s t h
  exact List.ext_getElem? fun l => hkeep l (hw ▸ List.not_mem_nil)

/-- R66: a command does not change what its ports held at its edge. -/
theorem ports_of_exec_next {i : Instr} {s t : State} (h : exec i s = .next t) : t.ports = s.ports := by
  rw [eq_driveDout_of_exec_next i s t h, driveDout_ports]

/-- R33: a command that writes no lane finds the same lanes and ports the second time, so it does the same. -/
theorem exec_again_of_lanesWritten_nil {i : Instr} {s t : State} (h : exec i s = .next t)
    (hw : lanesWritten i = []) : ∃ u, exec i t = .next u ∧ u.rbf = t.rbf ∧ u.dout = t.dout :=
  resultsDependOnlyOnLanesAndPorts i s t t (rbf_of_exec_next h hw).symm (ports_of_exec_next h).symm h

/-- R104: the lanes of an SVD hold the halves of DIN afterwards. -/
theorem lanes_of_exec_svd_next {i : Nat} {s t : State} (h : exec (.svd i) s = .next t) :
    t.rbf[2 * i]? = some (some (lowHalf (dinDouble s))) ∧
      t.rbf[2 * i + 1]? = some (some (highHalf (dinDouble s))) := by
  obtain ⟨hi, rfl⟩ := (exec_svd_next_iff i s t).1 h
  rw [driveDout_rbf]
  constructor
  · rw [getElem?_setLane_other _ _ _ _ (by omega), ← laneRead_ok_iff]
    exact laneRead_setLane_same _ _ s (by omega)
  · rw [← laneRead_ok_iff]
    exact laneRead_setLane_same _ _ _ ((setLane_length _ _ _).symm ▸ hi)

/-- R114: the lane of an SVF holds the lower half of DIN afterwards. -/
theorem lane_of_exec_svf_next {i : Nat} {s t : State} (h : exec (.svf i) s = .next t) :
    t.rbf[i]? = some (some (dinWord s)) := by
  obtain ⟨hi, rfl⟩ := (exec_svf_next_iff i s t).1 h
  rw [driveDout_rbf, ← laneRead_ok_iff]
  exact laneRead_setLane_same _ _ s hi

/-- R104: a second SVD writes to both lanes the values that they hold. -/
theorem exec_svd_again {i : Nat} {s t : State} (h : exec (.svd i) s = .next t) :
    exec (.svd i) t = .next (driveDout 0 t) := by
  obtain ⟨hlo, hhi⟩ := lanes_of_exec_svd_next h
  have hdin : dinDouble t = dinDouble s := congrArg Ports.din (ports_of_exec_next h)
  refine (exec_svd_next_iff i t _).2 ⟨(List.getElem?_eq_some_iff.1 hhi).1, ?_⟩
  rw [hdin, setLane_eq_self hlo, setLane_eq_self hhi]

/-- R114: a second SVF writes to its lane the value that it holds. -/
theorem exec_svf_again {i : Nat} {s t : State} (h : exec (.svf i) s = .next t) :
    exec (.svf i) t = .next (driveDout 0 t) := by
  have hv := lane_of_exec_svf_next h
  have hdin : dinWord t = dinWord s := by
    rw [dinWord, ports_of_exec_next h, dinWord]
  refine (exec_svf_next_iff i t _).2 ⟨(List.getElem?_eq_some_iff.1 hv).1, ?_⟩
  rw [hdin, setLane_eq_self hv]

/-! ### The obligations of spec/20_memory.md -/

/-- Settles O56: a run fills the lanes that its steps write and keeps every other. -/
theorem runLeavesUnwrittenLanes : Obligations.RunLeavesUnwrittenLanes := by
  unfold Obligations.RunLeavesUnwrittenLanes
  intro k s t l h hl
  obtain ⟨hkeep, -⟩ := fillsLanes_of_run_next k s t h
  refine hkeep l fun hmem => ?_
  obtain ⟨e, he, hle⟩ := List.mem_flatMap.1 hmem
  exact hl e he hle

/-- Settles O58: progress and preservation of `RunFits`, which the launch has. -/
theorem fullBankRunCompletes : Obligations.FullBankRunCompletes := by
  unfold Obligations.FullBankRunCompletes
  intro bank events hbank hevents
  exact run_completes_of_progress RunFits.progress _ _ ⟨bankFull_launch events hbank, launch_faultMark _ _, hevents⟩

/-- Settles O40: a command that writes no lane does the same on the same bank; a save writes what its lanes hold. -/
theorem commandsAreIdempotent : Obligations.CommandsAreIdempotent := by
  unfold Obligations.CommandsAreIdempotent
  intro i s t h
  cases i with
  | sext w => exact exec_again_of_lanesWritten_nil h rfl
  | ldd i => exact exec_again_of_lanesWritten_nil h rfl
  | svd i =>
    obtain ⟨-, rfl⟩ := (exec_svd_next_iff i s t).1 h
    exact ⟨_, exec_svd_again h, rfl, rfl⟩
  | ldf i => exact exec_again_of_lanesWritten_nil h rfl
  | svf i =>
    obtain ⟨-, rfl⟩ := (exec_svf_next_iff i s t).1 h
    exact ⟨_, exec_svf_again h, rfl, rfl⟩
  | isnan => exact exec_again_of_lanesWritten_nil h rfl

/-- Settles O46: beside the lanes it writes, a command that completes only drives DOUT. -/
theorem commandFrame : Obligations.CommandFrame := by
  unfold Obligations.CommandFrame
  intro i s t h
  obtain ⟨hlen, hmark⟩ := sameForm_of_exec_next i s t h
  obtain ⟨hkeep, -⟩ := fillsLanes_of_exec_next i s t h
  refine ⟨hlen, hkeep, hmark, ?_, ports_of_exec_next h, inputs_of_exec_next i s t h, ?_⟩
  · rw [eq_driveDout_of_exec_next i s t h, driveDout_observed, driveDout_dout]
  · rw [eq_driveDout_of_exec_next i s t h, driveDout_freeCount]

/-- Settles O14: the owner's step is the lane access, with the lane access's value and faults. -/
theorem ownerReadsAndWritesLanes : Obligations.OwnerReadsAndWritesLanes := by
  unfold Obligations.OwnerReadsAndWritesLanes
  refine ⟨fun s l rest v hm hi hv => ?_, fun s l rest hm hi hl => ?_, fun s l rest hm hi hl => ?_,
    fun s l v rest hm hi hl => ?_, fun s l v rest hm hi hl => ?_⟩ <;>
    rw [step_of_inputs s _ rest hm hi]
  · exact (hostRead_next_iff l { s with inputs := rest } _).2 ⟨v, hv, rfl⟩
  · have hr := (laneRead_error_iff l _ { s with inputs := rest }).2 (.inl ⟨hl, rfl⟩)
    exact ⟨_, (hostRead_fault_iff l _ _).2 ⟨_, hr, rfl⟩, rfl⟩
  · have hr := (laneRead_error_iff l _ { s with inputs := rest }).2 (.inr ⟨hl, rfl⟩)
    exact ⟨_, (hostRead_fault_iff l _ _).2 ⟨_, hr, rfl⟩, rfl⟩
  · refine ⟨_, (hostWrite_next_iff l v { s with inputs := rest } _).2 ⟨hl, rfl⟩, setLane_length l v s, ?_,
      fun k hk => getElem?_setLane_other l k v s hk⟩
    exact (laneRead_ok_iff l v (setLane l v s)).1 (laneRead_setLane_same l v s hl)
  · exact ⟨_, (hostWrite_fault_iff l v { s with inputs := rest } _).2 ⟨hl, rfl⟩, rfl⟩

/-- Settles O29: both double accesses check lane `2*i+1` first, and the fault leaves the bank before the command. -/
theorem twoLaneCommandsCheckRangeFirst : Obligations.TwoLaneCommandsCheckRangeFirst := by
  unfold Obligations.TwoLaneCommandsCheckRangeFirst
  intro i s h
  have hread := (doubleRead_error_iff i _ s).2 (.inl ⟨h, rfl⟩)
  exact ⟨⟨_, (exec_ldd_fault_iff i s _).2 ⟨_, hread, rfl⟩, rfl⟩,
    ⟨_, (exec_svd_fault_iff i s _).2 ⟨h, rfl⟩, rfl⟩⟩

end Sys2Proof.Machine

/-! ### Command words and their fields

The value of a command word by its fields, what the decoder answers for each operation code, and what an edge with a
request does. -/

namespace Sys2Proof

/-! #### The fields as numbers (R61) -/

/-- R61: OP is the word modulo `2^3`. -/
theorem opField_toNat (c : CmdWord) : (opField c).toNat = c.toNat % 8 := by
  rw [opField, BitVec.extractLsb'_toNat, Nat.shiftRight_zero]

/-- R61: W is what stands above OP, modulo `2^6`. -/
theorem widthField_toNat (c : CmdWord) : (widthField c).toNat = c.toNat / 8 % 64 := by
  rw [widthField, BitVec.extractLsb'_toNat, Nat.shiftRight_eq_div_pow]

/-- R61: IDX is what stands above W. -/
theorem indexField_toNat (c : CmdWord) : (indexField c).toNat = c.toNat / 512 % 128 := by
  rw [indexField, BitVec.extractLsb'_toNat, Nat.shiftRight_eq_div_pow]

/-- R61: the value of a word is `IDX * 2^9 + W * 2^3 + OP`. -/
theorem cmdWord_toNat (op : BitVec 3) (w i : Nat) :
    (cmdWord op w i).toNat = i % 128 * 512 + w % 64 * 8 + op.toNat := by
  have hw : w % 64 < 2 ^ 6 := by omega
  rw [cmdWord, BitVec.toNat_append, BitVec.toNat_append, BitVec.toNat_ofNat, BitVec.toNat_ofNat,
    ← Nat.shiftLeft_add_eq_or_of_lt op.isLt, ← Nat.shiftLeft_add_eq_or_of_lt hw, Nat.shiftLeft_eq, Nat.shiftLeft_eq]
  omega

/-- R61: a word is put together from its fields. -/
theorem cmdWord_fields (c : CmdWord) :
    cmdWord (opField c) (widthField c).toNat (indexField c).toNat = c := by
  apply BitVec.eq_of_toNat_eq
  have hc : c.toNat < 2 ^ 16 := c.isLt
  rw [cmdWord_toNat, opField_toNat, widthField_toNat, indexField_toNat]
  omega

/-- R61: the operation code of a word is the one it was put together with. -/
theorem opField_cmdWord (op : BitVec 3) (w i : Nat) : opField (cmdWord op w i) = op := by
  apply BitVec.eq_of_toNat_eq
  have hop : op.toNat < 2 ^ 3 := op.isLt
  rw [opField_toNat, cmdWord_toNat]
  omega

/-- R61, R64: a width that fits W comes back. -/
theorem widthField_cmdWord (op : BitVec 3) {w : Nat} (i : Nat) (hw : w ≤ 63) :
    (widthField (cmdWord op w i)).toNat = w := by
  have hop : op.toNat < 2 ^ 3 := op.isLt
  rw [widthField_toNat, cmdWord_toNat]
  omega

/-- R61, R63: an index that fits IDX comes back. -/
theorem indexField_cmdWord (op : BitVec 3) (w : Nat) {i : Nat} (hi : i ≤ 127) :
    (indexField (cmdWord op w i)).toNat = i := by
  have hop : op.toNat < 2 ^ 3 := op.isLt
  rw [indexField_toNat, cmdWord_toNat]
  omega

/-! #### The fields of a command (R62) -/

/-- The operation code of a command (R62). -/
@[simp] def Instr.opcode : Instr → BitVec 3
  | .sext _ => 0#3
  | .ldd _ => 1#3
  | .svd _ => 2#3
  | .ldf _ => 3#3
  | .svf _ => 4#3
  | .isnan => 5#3

/-- What W holds for a command: its width, or 0 where the field is reserved (R62, R67). -/
@[simp] def Instr.widthOperand : Instr → Nat
  | .sext w => w
  | .ldd _ | .svd _ | .ldf _ | .svf _ | .isnan => 0

/-- What IDX holds for a command: its index, or 0 where the field is reserved (R62, R67). -/
@[simp] def Instr.indexOperand : Instr → Nat
  | .ldd i | .svd i | .ldf i | .svf i => i
  | .sext _ | .isnan => 0

/-- R62: the word of a command is put together from the command's fields. -/
theorem encode_eq_cmdWord (i : Instr) : encode i = cmdWord i.opcode i.widthOperand i.indexOperand := by
  cases i <;> rfl

/-- R63, R64: a command has a word exactly when both its operands fit their fields. -/
theorem wellFormed_iff (i : Instr) : i.WellFormed ↔ i.widthOperand ≤ 63 ∧ i.indexOperand ≤ 127 := by
  cases i <;> simp [Instr.WellFormed, Instr.wellFormed]

/-! #### What the decoder answers -/

/-- R67: a word is accepted exactly when its reserved fields are 0. -/
theorem acceptIf_ok_iff (b : Bool) (i j : Instr) : acceptIf b i = .ok j ↔ b = true ∧ i = j := by
  cases b <;> simp [acceptIf]

/-- R67: a word whose operation code has a command is refused exactly for a reserved field that is not 0. -/
theorem acceptIf_error_iff (b : Bool) (i : Instr) (r : DecodeReject) :
    acceptIf b i = .error r ↔ b = false ∧ r = .reservedField := by
  cases b <;> simp [acceptIf, eq_comm]

/-- R62, R67, R68: what the decoder answers, by operation code. -/
theorem decode_cases (c : CmdWord) :
    (opField c = 0#3 ∧ decode c = acceptIf (indexField c == 0) (.sext (widthField c).toNat)) ∨
    (opField c = 1#3 ∧ decode c = acceptIf (widthField c == 0) (.ldd (indexField c).toNat)) ∨
    (opField c = 2#3 ∧ decode c = acceptIf (widthField c == 0) (.svd (indexField c).toNat)) ∨
    (opField c = 3#3 ∧ decode c = acceptIf (widthField c == 0) (.ldf (indexField c).toNat)) ∨
    (opField c = 4#3 ∧ decode c = acceptIf (widthField c == 0) (.svf (indexField c).toNat)) ∨
    (opField c = 5#3 ∧ decode c = acceptIf (widthField c == 0 && indexField c == 0) .isnan) ∨
    ((opField c = 6#3 ∨ opField c = 7#3) ∧ decode c = .error .reservedOperation) := by
  have hop : ∀ op : BitVec 3,
      op = 0#3 ∨ op = 1#3 ∨ op = 2#3 ∨ op = 3#3 ∨ op = 4#3 ∨ op = 5#3 ∨ op = 6#3 ∨ op = 7#3 := by decide
  rcases hop (opField c) with h | h | h | h | h | h | h | h <;> simp [decode, h]

/-- R62, R67: a word decodes to a command exactly when its three fields are the command's: where the operation codes
agree the reserved fields must be 0 and the operand must be its field, and where they differ neither side holds. -/
theorem decode_ok_iff (c : CmdWord) (i : Instr) :
    decode c = .ok i ↔
      opField c = i.opcode ∧ (widthField c).toNat = i.widthOperand ∧ (indexField c).toNat = i.indexOperand := by
  rcases decode_cases c with ⟨hop, hd⟩ | ⟨hop, hd⟩ | ⟨hop, hd⟩ | ⟨hop, hd⟩ | ⟨hop, hd⟩ | ⟨hop, hd⟩ |
      ⟨hop | hop, hd⟩ <;>
    rw [hd, hop] <;> cases i <;> simp [acceptIf_ok_iff, BitVec.toNat_eq, and_comm]

/-- R68: the word has one of the two reserved operation codes. -/
def ReservedOperation (c : CmdWord) : Prop := opField c = 6#3 ∨ opField c = 7#3

/-- R67: the word has a command's operation code, and a field reserved for that command is not 0. -/
def ReservedField (c : CmdWord) : Prop :=
  (opField c = 0#3 ∧ indexField c ≠ 0#7) ∨
  ((opField c = 1#3 ∨ opField c = 2#3 ∨ opField c = 3#3 ∨ opField c = 4#3) ∧ widthField c ≠ 0#6) ∨
  (opField c = 5#3 ∧ (widthField c ≠ 0#6 ∨ indexField c ≠ 0#7))

/-- R67, R68: which words the decoder refuses, and why. -/
theorem decode_error_iff (c : CmdWord) (r : DecodeReject) :
    decode c = .error r ↔
      (ReservedOperation c ∧ r = .reservedOperation) ∨ (ReservedField c ∧ r = .reservedField) := by
  rcases decode_cases c with ⟨hop, hd⟩ | ⟨hop, hd⟩ | ⟨hop, hd⟩ | ⟨hop, hd⟩ | ⟨hop, hd⟩ | ⟨hop, hd⟩ |
      ⟨hop | hop, hd⟩ <;>
    rw [hd] <;> simp [acceptIf_error_iff, ReservedOperation, ReservedField, hop, imp_iff_not_or, eq_comm (a := r)]

/-! #### The obligations on the code -/

/-- Settles O1: the three fields of a command's word are the command's, when its operands fit them. -/
theorem decodeEncodeRoundTrip : Obligations.DecodeEncodeRoundTrip := by
  unfold Obligations.DecodeEncodeRoundTrip
  intro i hwf
  obtain ⟨hw, hi⟩ := (wellFormed_iff i).1 hwf
  rw [decode_ok_iff, encode_eq_cmdWord]
  exact ⟨opField_cmdWord _ _ _, widthField_cmdWord _ _ hw, indexField_cmdWord _ _ hi⟩

/-- Settles O2: a decoded command has the word's three fields, of which the word is put together. -/
theorem decodedWordIsItsEncoding : Obligations.DecodedWordIsItsEncoding := by
  unfold Obligations.DecodedWordIsItsEncoding
  intro c i h
  obtain ⟨hop, hw, hi⟩ := (decode_ok_iff c i).1 h
  constructor
  · rw [wellFormed_iff, ← hw, ← hi]
    exact ⟨Nat.le_of_lt_succ (widthField c).isLt, Nat.le_of_lt_succ (indexField c).isLt⟩
  · rw [encode_eq_cmdWord, ← hop, ← hw, ← hi, cmdWord_fields]

/-- Settles O3: the two reasons of a refusal are the two kinds of reserved word. -/
theorem decodeRefusesExactlyReservedWords : Obligations.DecodeRefusesExactlyReservedWords := by
  unfold Obligations.DecodeRefusesExactlyReservedWords
  intro c
  change (∃ r, decode c = .error r) ↔ ReservedOperation c ∨ ReservedField c
  simp only [decode_error_iff, exists_or, exists_and_left, exists_eq, and_true]

/-- Settles O4: a word's value by its fields, one of which is the operand. -/
theorem encodedWordLayout : Obligations.EncodedWordLayout := by
  unfold Obligations.EncodedWordLayout
  refine ⟨?_, ?_, ?_, ?_, ?_, rfl⟩ <;> intro n hn <;> rw [encode, cmdWord_toNat, BitVec.toNat_ofNat] <;> omega

/-- Settles O5: the decoder evaluated on each word. -/
theorem sampleWordsDecode : Obligations.SampleWordsDecode := by
  unfold Obligations.SampleWordsDecode
  exact ⟨rfl, rfl, rfl, rfl, rfl, rfl, rfl, rfl, rfl⟩

end Sys2Proof

namespace Sys2Proof.Machine

/-! #### An edge that requests a command (R69, R143) -/

/-- R161, R167: an edge out of reset with a request takes the command on its own ports. -/
theorem step_of_request {s : State} {p : Ports} {rest : List Event} (hm : s.faultMark = none)
    (hi : s.inputs = .edge p :: rest) (hr : p.rstN = true) (hq : p.req = true) :
    step s = commandEdge { s with ports := p, inputs := rest } := by
  rw [step_of_inputs s _ rest hm hi]
  simp only [takeEvent, clockEdge, hr, hq, reduceCtorEq, if_false]

/-- R69: an edge that takes a command runs what its word decodes to. -/
theorem commandEdge_of_decode_ok {s : State} {i : Instr} (hd : decode s.ports.cmd = .ok i) :
    commandEdge s = exec i s := by
  rw [commandEdge, hd]

/-- R143: an edge that takes a word of no command raises `IllegalCommand`. -/
theorem commandEdge_of_decode_error {s : State} {r : DecodeReject} (hd : decode s.ports.cmd = .error r) :
    commandEdge s = .fault (.illegalCommand s.ports.cmd (afterCommandFault (.illegalCommand s.ports.cmd) s)) := by
  rw [commandEdge, hd]
  rfl

/-- R143, R141: a request for a word of no command faults `IllegalCommand` with that word and leaves the lanes. -/
theorem step_illegalCommand {s : State} {p : Ports} {rest : List Event} {r : DecodeReject} (hm : s.faultMark = none)
    (hi : s.inputs = .edge p :: rest) (hr : p.rstN = true) (hq : p.req = true) (hd : decode p.cmd = .error r) :
    ∃ t, step s = .fault (.illegalCommand p.cmd t) ∧ t.rbf = s.rbf :=
  ⟨_, (step_of_request hm hi hr hq).trans (commandEdge_of_decode_error hd), afterCommandFault_rbf _ _⟩

/-- Settles O6: the decoder refuses the word for its reserved field. -/
theorem reservedFieldIsIllegal : Obligations.ReservedFieldIsIllegal := by
  unfold Obligations.ReservedFieldIsIllegal
  intro s p rest hm hi hr hq hfield
  exact step_illegalCommand hm hi hr hq ((decode_error_iff p.cmd .reservedField).2 (.inr ⟨hfield, rfl⟩))

/-- Settles O7: the decoder refuses the word for its operation code. -/
theorem reservedOperationIsIllegal : Obligations.ReservedOperationIsIllegal := by
  unfold Obligations.ReservedOperationIsIllegal
  intro s p rest hm hi hr hq hop
  exact step_illegalCommand hm hi hr hq ((decode_error_iff p.cmd .reservedOperation).2 (.inl ⟨hop, rfl⟩))

/-- Settles O9: the step takes the command on the sampled ports, and its word decodes. -/
theorem stepRunsDecodedCommand : Obligations.StepRunsDecodedCommand := by
  unfold Obligations.StepRunsDecodedCommand
  intro s p rest i hm hi hr hq hd
  exact (step_of_request hm hi hr hq).trans (commandEdge_of_decode_ok hd)

/-! #### Data in and data out (R65, R66) -/

/-- R13: a zero-extended word has a zero upper half. -/
theorem highHalf_zext64 (v : Word) : highHalf (zext64 v) = 0#32 := by
  apply BitVec.eq_of_getLsbD_eq
  intro k hk
  have hv : v.getLsbD (32 + k) = false := BitVec.getLsbD_of_ge v _ (by omega)
  rw [getLsbD_highHalf, zext64, BitVec.getLsbD_setWidth, hv, Bool.and_false, Bool.and_false, BitVec.getLsbD_zero]

/-- Settles O48: what each command that completes drives on DOUT. -/
theorem doutUpperBitsZero : Obligations.DoutUpperBitsZero := by
  unfold Obligations.DoutUpperBitsZero
  refine ⟨fun w s t h => ?_, fun i s t h => ?_, fun i s t h => ?_, fun i s t h => ?_, fun s t h => ?_⟩
  · obtain ⟨-, rfl⟩ := (exec_sext_next_iff w s t).1 h
    exact highHalf_zext64 _
  · obtain ⟨v, -, rfl⟩ := (exec_ldf_next_iff i s t).1 h
    exact highHalf_zext64 v
  · obtain ⟨-, rfl⟩ := (exec_svd_next_iff i s t).1 h
    rfl
  · obtain ⟨-, rfl⟩ := (exec_svf_next_iff i s t).1 h
    rfl
  · obtain rfl := (exec_isnan_next_iff s t).1 h
    rw [driveDout_dout]
    exact ite_eq_or_eq _ _ _

/-- `s` with the operand `d` on DIN. -/
def withDin (d : DWord) (s : State) : State := { s with ports := { s.ports with din := d } }

/-- R65: the word operand is the lower half of DIN. -/
theorem dinWord_withDin {d : DWord} {s : State} (h : lowHalf d = lowHalf s.ports.din) :
    dinWord (withDin d s) = dinWord s := h

/-- Settles O49: LDD and LDF complete by the lanes alone; SEXT and SVF take only the word operand from DIN. -/
theorem ignoredDinBitsHaveNoEffect : Obligations.IgnoredDinBitsHaveNoEffect := by
  unfold Obligations.IgnoredDinBitsHaveNoEffect
  constructor
  · rintro _ s d t ⟨i, rfl | rfl⟩ h
    · obtain ⟨lo, hi, hlo, hhi, rfl⟩ := (exec_ldd_next_iff i s t).1 h
      exact (exec_ldd_next_iff i (withDin d s) _).2 ⟨lo, hi, hlo, hhi, rfl⟩
    · obtain ⟨v, hv, rfl⟩ := (exec_ldf_next_iff i s t).1 h
      exact (exec_ldf_next_iff i (withDin d s) _).2 ⟨v, hv, rfl⟩
  · rintro _ s d t ⟨n, rfl | rfl⟩ hd h
    · obtain ⟨hw, rfl⟩ := (exec_sext_next_iff n s t).1 h
      refine (exec_sext_next_iff n (withDin d s) _).2 ⟨hw, ?_⟩
      rw [dinWord_withDin hd]
      rfl
    · obtain ⟨hn, rfl⟩ := (exec_svf_next_iff n s t).1 h
      refine (exec_svf_next_iff n (withDin d s) _).2 ⟨hn, ?_⟩
      rw [dinWord_withDin hd]
      rfl

/-! #### The assembler (R72) -/

/-- R72: a command line is the request for its word, unless the operand or the data does not fit. -/
theorem assembleCommand_eq (i : Instr) (width d : Nat) :
    assembleCommand i width d =
      if i.WellFormed ∧ d < 2 ^ width then some (requestEdge i (BitVec.ofNat 64 d)) else none := by
  simp only [assembleCommand, Bool.and_eq_true, decide_eq_true_eq]

/-- Settles O8: a command line fits when its operand and its data do; loads have no data. -/
theorem assemblerLinesAndRefusals : Obligations.AssemblerLinesAndRefusals := by
  unfold Obligations.AssemblerLinesAndRefusals
  refine ⟨?_, ?_, ?_, ?_, ?_, ?_, fun _ => rfl, fun _ _ => rfl⟩ <;>
    simp [assemble, assembleCommand_eq, requestEdge, wellFormed_iff]

end Sys2Proof.Machine

/-! ### Sign extension

The result of SEXT for a legal width, bit by bit and as a sign extension, and the obligations of
spec/40_sign_extension.md. -/

namespace Sys2Proof.Machine

/-! #### The result word -/

/-- R82, R84: below the width the result has the bits of the word; at and above it the sign bit joins them. -/
theorem getLsbD_signExtendWord {w k : Nat} (word : Word) (hw : 1 ≤ w) (hk : k < 32) :
    (signExtendWord w word).getLsbD k =
      if k < w then word.getLsbD k else (word.getLsbD k || word.getLsbD (w - 1)) := by
  rw [signExtendWord]
  by_cases hfull : w = 32
  · rw [if_pos hfull, if_pos (by omega)]
  rw [if_neg hfull]
  cases hsign : word.getLsbD (w - 1) with
  | false => simp
  | true =>
    have hmask : (ones32 <<< w).getLsbD k = !decide (k < w) := by
      rw [BitVec.getLsbD_shiftLeft, BitVec.getLsbD_allOnes, decide_eq_true hk,
        decide_eq_true (show k - w < 32 by omega), Bool.true_and, Bool.and_true]
    rw [if_pos rfl, BitVec.getLsbD_or, hmask]
    by_cases hkw : k < w <;> simp [hkw]

/-- R83: width 32 is a no-op. -/
theorem signExtendWord_full (word : Word) : signExtendWord 32 word = word := if_pos rfl

/-- R84: with the sign bit clear the word passes through, its bits above the width included. -/
theorem signExtendWord_of_sign_clear {w : Nat} {word : Word} (h : word.getLsbD (w - 1) = false) :
    signExtendWord w word = word := by
  rw [signExtendWord, h, if_neg Bool.false_ne_true, ite_self]

/-- R82: the sign bit is the top bit of the low `w` bits. -/
theorem msb_lowBits {w : Nat} (word : Word) (hw : 1 ≤ w) : (word.setWidth w).msb = word.getLsbD (w - 1) := by
  rw [BitVec.msb_setWidth, decide_eq_true (show 0 < w from hw), Bool.true_and]

/-- R84: with no bit set above the width the result is the sign extension of the low `w` bits. -/
theorem signExtendWord_eq_signExtend {w : Nat} {word : Word} (hw : 1 ≤ w)
    (h : ∀ k, w ≤ k → k < 32 → word.getLsbD k = false) :
    signExtendWord w word = (word.setWidth w).signExtend 32 := by
  apply BitVec.eq_of_getLsbD_eq
  intro k hk
  rw [getLsbD_signExtendWord word hw hk, BitVec.getLsbD_signExtend, decide_eq_true hk, Bool.true_and]
  by_cases hkw : k < w
  · rw [if_pos hkw, if_pos hkw, BitVec.getLsbD_setWidth, decide_eq_true hkw, Bool.true_and]
  · rw [if_neg hkw, if_neg hkw, h k (by omega) hk, Bool.false_or, msb_lowBits word hw]

/-- A word below `2^w` has no bit set at or above `w`. -/
theorem getLsbD_eq_false_of_lt_two_pow {w k : Nat} {word : Word} (h : word.toNat < 2 ^ w) (hk : w ≤ k) :
    word.getLsbD k = false :=
  Nat.testBit_lt_two_pow (h.trans_le (Nat.pow_le_pow_right Nat.two_pos hk))

/-- R85: an in-range word is sign-extended from its low `w` bits. -/
theorem signExtendWord_of_lt_two_pow {w : Nat} {word : Word} (hw : 1 ≤ w) (h : word.toNat < 2 ^ w) :
    signExtendWord w word = (word.setWidth w).signExtend 32 :=
  signExtendWord_eq_signExtend hw fun _ hk _ => getLsbD_eq_false_of_lt_two_pow h hk

/-- R85: the result for an in-range word has the signed value of the word's low `w` bits. -/
theorem toInt_signExtendWord {w : Nat} {word : Word} (hw : 1 ≤ w) (hw' : w ≤ 32) (h : word.toNat < 2 ^ w) :
    (signExtendWord w word).toInt = (word.setWidth w).toInt := by
  rw [signExtendWord_of_lt_two_pow hw h, BitVec.toInt_signExtend_of_le hw']

/-! #### The command -/

/-- R82: SEXT with a legal width completes, driving the result zero-extended on DOUT. -/
theorem exec_sext_of_legal {w : Nat} (s : State) (hw : 1 ≤ w) (hw' : w ≤ 32) :
    exec (.sext w) s = .next (driveDout (zext64 (signExtendWord w (dinWord s))) s) :=
  (exec_sext_next_iff w s _).2 ⟨⟨by omega, hw'⟩, rfl⟩

/-- R82: the DOUT of SEXT with a legal width, for the word that stands on DIN. -/
theorem exec_sext_dout {w : Nat} {s : State} {word : Word} (hw : 1 ≤ w) (hw' : w ≤ 32) (hd : dinWord s = word) :
    ∃ t, exec (.sext w) s = .next t ∧ t.dout = (signExtendWord w word).setWidth 64 :=
  ⟨_, exec_sext_of_legal s hw hw', by rw [driveDout_dout, zext64, hd]⟩

/-- Settles O19: the result of R82 bit by bit, and the frame of a command that only drives DOUT. -/
theorem sextResultBitByBit : Obligations.SextResultBitByBit := by
  unfold Obligations.SextResultBitByBit
  intro w s hw hw'
  exact ⟨signExtendWord w (dinWord s), exec_sext_of_legal s hw hw',
    fun k hk => getLsbD_signExtendWord (dinWord s) hw hk⟩

/-- Settles O21: the sign bit set, the sign bit clear, and no bit set above the width. -/
theorem sextBitsAboveWidth : Obligations.SextBitsAboveWidth := by
  unfold Obligations.SextBitsAboveWidth
  intro w s word hw hlt hd
  refine ⟨signExtendWord w word, exec_sext_dout hw hlt.le hd, fun hsign k hk hk' => ?_,
    signExtendWord_of_sign_clear, signExtendWord_eq_signExtend hw⟩
  rw [getLsbD_signExtendWord word hw hk', if_neg (by omega), hsign, Bool.or_true]

/-- Settles O22: the result has the signed value of a `w`-bit number, which gives the two cases and the range. -/
theorem sextInRangeValue : Obligations.SextInRangeValue := by
  unfold Obligations.SextInRangeValue
  intro w s word hw hw' hd h
  refine ⟨signExtendWord w word, exec_sext_dout hw hw' hd, ?_⟩
  rw [toInt_signExtendWord hw hw' h]
  refine ⟨?_, BitVec.le_toInt _, Int.le_sub_one_of_lt BitVec.toInt_lt⟩
  rw [BitVec.toInt_eq_msb_cond, msb_lowBits word hw, BitVec.toNat_setWidth, Nat.mod_eq_of_lt h, Nat.cast_pow, Nat.cast_ofNat]

/-- Settles O23: the low bits and bit 31 of the result by R82, and the full width by R83. -/
theorem sextSourceProperties : Obligations.SextSourceProperties := by
  unfold Obligations.SextSourceProperties
  constructor
  · intro w s word hw hw' hd h
    refine ⟨signExtendWord w word, exec_sext_dout hw hw' hd, ?_, ?_⟩
    · apply BitVec.eq_of_getLsbD_eq
      intro k hk
      rw [BitVec.getLsbD_setWidth, BitVec.getLsbD_setWidth,
        getLsbD_signExtendWord word hw (hk.trans_le hw'), if_pos hk]
    · rw [getLsbD_signExtendWord word hw (by decide)]
      by_cases hfull : 31 < w
      · rw [if_pos hfull, show w - 1 = 31 by omega]
      · rw [if_neg hfull, getLsbD_eq_false_of_lt_two_pow h (by omega), Bool.false_or]
  · intro s x hd
    exact ⟨signExtendWord 32 x, exec_sext_dout (by decide) le_rfl hd, by rw [signExtendWord_full]⟩

/-- Settles O20: width 32 drives the word itself. -/
theorem sextFullWidthIsNoOp : Obligations.SextFullWidthIsNoOp := by
  unfold Obligations.SextFullWidthIsNoOp
  intro s
  rw [exec_sext_of_legal s (by decide) le_rfl, signExtendWord_full]
  rfl

/-- Settles O25: the DOUT is a function of the width and the word operand, and only DOUT is driven. -/
theorem sextReadsOnlyWidthAndWord : Obligations.SextReadsOnlyWidthAndWord := by
  unfold Obligations.SextReadsOnlyWidthAndWord
  intro w s s' hw hw' hd
  have hword : dinWord s' = dinWord s := hd.symm
  refine ⟨zext64 (signExtendWord w (dinWord s)), exec_sext_of_legal s hw hw', ?_⟩
  rw [exec_sext_of_legal s' hw hw', hword]
  rfl

end Sys2Proof.Machine

/-! ### Loads and saves of the bank

What LDD, SVD, LDF and SVF do from the lanes they name, a load after a save, and the obligations of
spec/41_fp_marshaling.md. -/

namespace Sys2Proof.Machine

open Safety

/-! #### What a load answers -/

/-- R102: LDD of two lanes that hold values completes, driving them joined on DOUT. -/
theorem exec_ldd_of_lanes {i : Nat} {s : State} {lo hi : Word} (hlo : s.rbf[2 * i]? = some (some lo))
    (hhi : s.rbf[2 * i + 1]? = some (some hi)) : exec (.ldd i) s = .next (driveDout (joinHalves hi lo) s) :=
  (exec_ldd_next_iff i s _).2 ⟨lo, hi, hlo, hhi, rfl⟩

/-- R112: LDF of a lane that holds a value completes, driving it zero-extended on DOUT. -/
theorem exec_ldf_of_lane {i : Nat} {s : State} {v : Word} (hv : s.rbf[i]? = some (some v)) :
    exec (.ldf i) s = .next (driveDout (zext64 v) s) :=
  (exec_ldf_next_iff i s _).2 ⟨v, hv, rfl⟩

/-- R47: HostRead of a lane that holds a value completes, and the run observes the value. -/
theorem hostRead_of_lane {l : Nat} {s : State} {v : Word} (hv : s.rbf[l]? = some (some v)) :
    hostRead l s = .next (observeLane l v s) :=
  (hostRead_next_iff l s _).2 ⟨v, hv, rfl⟩

/-- R102, R141: LDD faults for the reason its double read does, and leaves the lanes. -/
theorem exec_ldd_of_doubleRead_error {i : Nat} {s : State} {r : FaultReason} (h : doubleRead i s = .error r) :
    ∃ t, exec (.ldd i) s = .fault (toFault r t) ∧ t.rbf = s.rbf :=
  ⟨_, (exec_ldd_fault_iff i s _).2 ⟨r, h, rfl⟩, afterCommandFault_rbf r s⟩

/-- R112, R141: LDF faults exactly when its lane read does. -/
theorem exec_ldf_fault_iff (i : Nat) (s : State) (f : Fault) :
    exec (.ldf i) s = .fault f ↔ ∃ r, laneRead i s = .error r ∧ f = toFault r (afterCommandFault r s) := by
  rw [exec, execLdf, finishCommand_fault_iff]
  simp only [loadToDout_error_iff, floatRead]
  cases laneRead i s <;> simp [Except.map]

/-! #### What a save answers -/

/-- R104: SVD of two lanes of the bank completes. -/
theorem exec_svd_completes {i : Nat} {s : State} (h : 2 * i + 1 < s.rbf.length) : ∃ t, exec (.svd i) s = .next t :=
  ⟨_, (exec_svd_next_iff i s _).2 ⟨h, rfl⟩⟩

/-- R114: SVF of a lane of the bank completes. -/
theorem exec_svf_completes {i : Nat} {s : State} (h : i < s.rbf.length) : ∃ t, exec (.svf i) s = .next t :=
  ⟨_, (exec_svf_next_iff i s _).2 ⟨h, rfl⟩⟩

/-- R114, R141: SVF faults exactly when its lane does not exist. -/
theorem exec_svf_fault_iff (i : Nat) (s : State) (f : Fault) :
    exec (.svf i) s = .fault f ↔
      s.rbf.length ≤ i ∧ f = .badIndex i (afterCommandFault (.badIndex i) s) := by
  rw [exec, execSvf, finishCommand_fault_iff]
  simp only [saveThenZero_error_iff, floatWrite, laneWrite_error_iff, and_assoc, exists_and_left, exists_eq_left,
    toFault]

/-- R104: SVD leaves every lane but its two. -/
theorem other_lane_of_exec_svd_next {i l : Nat} {s t : State} (h : exec (.svd i) s = .next t) (hlo : l ≠ 2 * i)
    (hhi : l ≠ 2 * i + 1) : t.rbf[l]? = s.rbf[l]? := by
  obtain ⟨hkeep, -⟩ := fillsLanes_of_exec_next _ s t h
  exact hkeep l (by simp [lanesWritten, hlo, hhi])

/-- R114, R119: SVF leaves every lane but its own. -/
theorem other_lane_of_exec_svf_next {i l : Nat} {s t : State} (h : exec (.svf i) s = .next t) (hl : l ≠ i) :
    t.rbf[l]? = s.rbf[l]? := by
  obtain ⟨hkeep, -⟩ := fillsLanes_of_exec_next _ s t h
  exact hkeep l (by simp [lanesWritten, hl])

/-! #### A double register after SVF wrote one of its halves (R116, R119) -/

/-- R119: LDD after an SVF to the low half gives the saved word under the high half as it was. -/
theorem exec_ldd_after_svf_low {i : Nat} {s t : State} {hi : Word} (h : exec (.svf (2 * i)) s = .next t)
    (hhi : s.rbf[2 * i + 1]? = some (some hi)) :
    exec (.ldd i) t = .next (driveDout (joinHalves hi (dinWord s)) t) :=
  exec_ldd_of_lanes (lane_of_exec_svf_next h) ((other_lane_of_exec_svf_next h (by omega)).trans hhi)

/-- R119: LDD after an SVF to the high half gives the saved word over the low half as it was. -/
theorem exec_ldd_after_svf_high {i : Nat} {s t : State} {lo : Word} (h : exec (.svf (2 * i + 1)) s = .next t)
    (hlo : s.rbf[2 * i]? = some (some lo)) :
    exec (.ldd i) t = .next (driveDout (joinHalves (dinWord s) lo) t) :=
  exec_ldd_of_lanes ((other_lane_of_exec_svf_next h (by omega)).trans hlo) (lane_of_exec_svf_next h)

/-! #### The obligations of spec/41_fp_marshaling.md -/

/-- Settles O34: the run keeps both halves of the saved value, and LDD joins them again. -/
theorem doubleRoundTrip : Obligations.DoubleRoundTrip := by
  unfold Obligations.DoubleRoundTrip
  intro i s h
  obtain ⟨t, ht⟩ := exec_svd_completes h
  obtain ⟨hlo, hhi⟩ := lanes_of_exec_svd_next ht
  refine ⟨t, ht, fun k u hspared hrun => ?_⟩
  have hlo' := (runLeavesUnwrittenLanes k t u (2 * i) hrun fun e he => (hspared e he).1).trans hlo
  have hhi' := (runLeavesUnwrittenLanes k t u (2 * i + 1) hrun fun e he => (hspared e he).2).trans hhi
  exact ⟨_, exec_ldd_of_lanes hlo' hhi', joinHalves_halves _⟩

/-- Settles O35: the run keeps the saved lane; a lane that does not exist fails the lane access. -/
theorem floatRoundTrip : Obligations.FloatRoundTrip := by
  unfold Obligations.FloatRoundTrip
  constructor
  · intro i s h
    obtain ⟨t, ht⟩ := exec_svf_completes h
    refine ⟨t, ht, fun k u hspared hrun => ?_⟩
    have hv := (runLeavesUnwrittenLanes k t u i hrun hspared).trans (lane_of_exec_svf_next ht)
    exact ⟨_, exec_ldf_of_lane hv, rfl⟩
  · intro i s h
    have hread := (laneRead_error_iff i _ s).2 (.inl ⟨h, rfl⟩)
    exact ⟨⟨_, (exec_ldf_fault_iff i s _).2 ⟨_, hread, rfl⟩⟩, ⟨_, (exec_svf_fault_iff i s _).2 ⟨h, rfl⟩⟩⟩

/-- Settles O28: SVD fills its two lanes with the halves of DIN and keeps the others. -/
theorem svdSavesDouble : Obligations.SvdSavesDouble := by
  unfold Obligations.SvdSavesDouble
  intro i s h
  have ht := (exec_svd_next_iff i s _).2 ⟨h, rfl⟩
  obtain ⟨hlo, hhi⟩ := lanes_of_exec_svd_next ht
  obtain ⟨hlen, -⟩ := sameForm_of_exec_next _ s _ ht
  have hkeep := fun l => other_lane_of_exec_svd_next (l := l) ht
  exact ⟨_, ht, hlen, hlo, hhi, hkeep⟩

/-- Settles O31: SVF fills its lane with the lower half of DIN and keeps the others. -/
theorem svfSavesFloat : Obligations.SvfSavesFloat := by
  unfold Obligations.SvfSavesFloat
  intro i s h
  have ht := (exec_svf_next_iff i s _).2 ⟨h, rfl⟩
  obtain ⟨hlen, -⟩ := sameForm_of_exec_next _ s _ ht
  have hv := lane_of_exec_svf_next ht
  have hkeep := fun l => other_lane_of_exec_svf_next (l := l) ht
  exact ⟨_, ht, hlen, hv, hkeep⟩

/-- Settles O36: the owner reads the lanes that SVD filled. -/
theorem svdLaneMapping : Obligations.SvdLaneMapping := by
  unfold Obligations.SvdLaneMapping
  intro i s h
  obtain ⟨t, ht⟩ := exec_svd_completes h
  obtain ⟨hlo, hhi⟩ := lanes_of_exec_svd_next ht
  exact ⟨t, ht, hostRead_of_lane hlo, hostRead_of_lane hhi⟩

/-- Settles O37: all three read the lane that SVF filled; it is the low half for even `j`, the high half for odd. -/
theorem floatAliasesHalfOfDouble : Obligations.FloatAliasesHalfOfDouble := by
  unfold Obligations.FloatAliasesHalfOfDouble
  rintro j s _ h rfl
  obtain ⟨t, ht⟩ := exec_svf_completes h
  have hv := lane_of_exec_svf_next ht
  refine ⟨t, ht, hostRead_of_lane hv, ⟨_, exec_ldf_of_lane hv, rfl⟩, fun x heven hx => ?_, fun x hodd hx => ?_⟩
  · have hj : j = 2 * (j / 2) := by omega
    rw [hj] at ht hx
    exact ⟨_, exec_ldd_after_svf_low ht hx, lowHalf_joinHalves _ _⟩
  · have hj : j = 2 * (j / 2) + 1 := by omega
    rw [hj] at ht hx
    exact ⟨_, exec_ldd_after_svf_high ht hx, highHalf_joinHalves _ _⟩

/-- Settles O38: SVF fills one lane of the pair and keeps the other, and LDD joins the two. -/
theorem svfLeavesOtherHalf : Obligations.SvfLeavesOtherHalf := by
  unfold Obligations.SvfLeavesOtherHalf
  rintro i s lo hi _ hlo hhi rfl
  obtain ⟨hlow, -⟩ := List.getElem?_eq_some_iff.1 hlo
  obtain ⟨hhigh, -⟩ := List.getElem?_eq_some_iff.1 hhi
  obtain ⟨t, ht⟩ := exec_svf_completes hlow
  obtain ⟨t', ht'⟩ := exec_svf_completes hhigh
  exact ⟨⟨t, _, ht, exec_ldd_after_svf_low ht hhi, rfl⟩, ⟨t', _, ht', exec_ldd_after_svf_high ht' hlo, rfl⟩⟩

/-- Settles O26: LDD reads two lanes that hold values. -/
theorem lddLoadsDouble : Obligations.LddLoadsDouble := by
  unfold Obligations.LddLoadsDouble
  intro i s lo hi hlo hhi
  exact exec_ldd_of_lanes hlo hhi

/-- Settles O27: LDD has the faults of its double read, in the order of R147. -/
theorem lddFaultPriority : Obligations.LddFaultPriority := by
  unfold Obligations.LddFaultPriority
  intro i s
  refine ⟨fun h => ?_, fun h hlo => ?_, fun lo hlo hhi => ?_⟩
  · exact exec_ldd_of_doubleRead_error ((doubleRead_error_iff i _ s).2 (.inl ⟨h, rfl⟩))
  · exact exec_ldd_of_doubleRead_error ((doubleRead_error_iff i _ s).2 (.inr (.inl ⟨h, hlo, rfl⟩)))
  · obtain ⟨h, -⟩ := List.getElem?_eq_some_iff.1 hhi
    exact exec_ldd_of_doubleRead_error ((doubleRead_error_iff i _ s).2 (.inr (.inr ⟨h, ⟨lo, hlo⟩, hhi, rfl⟩)))

/-- Settles O30: LDF reads a lane that holds a value. -/
theorem ldfLoadsFloat : Obligations.LdfLoadsFloat := by
  unfold Obligations.LdfLoadsFloat
  intro i s v hv
  exact exec_ldf_of_lane hv

end Sys2Proof.Machine

/-! ### Binary64 patterns and the NaN test

The fields of a binary64 pattern, which patterns stand for the same number, IEEE-754 equality and ISNAN by the bits of
their operands, and the obligations of spec/42_nan_test.md. -/

namespace Sys2Proof.Machine

/-! #### A pattern and its fields (R17) -/

/-- R17: the exponent and the fraction together are bits 62:0. -/
theorem exponent64_append_fraction64 (b : DWord) : exponent64 b ++ fraction64 b = b.extractLsb' 0 63 :=
  BitVec.extractLsb'_append_extractLsb'_eq_extractLsb' (by decide)

/-- R17: two patterns have the same bits 62:0 exactly when their exponents and their fractions agree. -/
theorem extractLsb'_63_eq_iff (a b : DWord) :
    a.extractLsb' 0 63 = b.extractLsb' 0 63 ↔ exponent64 a = exponent64 b ∧ fraction64 a = fraction64 b := by
  rw [← exponent64_append_fraction64, ← exponent64_append_fraction64]
  refine ⟨fun h => ⟨?_, ?_⟩, fun ⟨he, hf⟩ => by rw [he, hf]⟩
  · have he := congrArg (BitVec.extractLsb' 52 11) h
    rwa [BitVec.extractLsb'_append_eq_left, BitVec.extractLsb'_append_eq_left] at he
  · have hf := congrArg (BitVec.extractLsb' 0 52) h
    rwa [BitVec.extractLsb'_append_eq_right, BitVec.extractLsb'_append_eq_right] at hf

/-- R17: a pattern is its sign and its bits 62:0. -/
theorem eq_iff_sign64_and_extractLsb' (a b : DWord) :
    a = b ↔ sign64 a = sign64 b ∧ a.extractLsb' 0 63 = b.extractLsb' 0 63 := by
  refine ⟨fun h => h ▸ ⟨rfl, rfl⟩, fun ⟨hsign, hlow⟩ => BitVec.eq_of_getLsbD_eq fun k hk => ?_⟩
  obtain hk | rfl : k < 63 ∨ k = 63 := by omega
  · simpa [BitVec.getLsbD_extractLsb', hk] using congrArg (·.getLsbD k) hlow
  · exact hsign

/-- R133: a NaN is a pattern with an exponent of all ones and a fraction that is not 0. -/
theorem isNan64_iff (b : DWord) :
    isNan64 b = true ↔ b.extractLsb' 52 11 = 0x7FF#11 ∧ b.extractLsb' 0 52 ≠ 0#52 := by
  rw [isNan64, Bool.and_eq_true, beq_iff_eq, bne_iff_ne, exponent64, fraction64]

/-- R17: an infinity is a pattern with an exponent of all ones and a fraction of 0. -/
theorem isInfinity64_iff (b : DWord) :
    isInfinity64 b = true ↔ exponent64 b = 0x7FF#11 ∧ fraction64 b = 0#52 := by
  rw [isInfinity64, Bool.and_eq_true, beq_iff_eq, beq_iff_eq]

/-- R17: only an exponent of all ones is a NaN's. -/
theorem isNan64_of_exponent64_ne {b : DWord} (h : exponent64 b ≠ 0x7FF#11) : isNan64 b = false := by
  rw [isNan64, beq_false_of_ne h, Bool.false_and]

/-- R17: only an exponent of all ones is an infinity's. -/
theorem isInfinity64_of_exponent64_ne {b : DWord} (h : exponent64 b ≠ 0x7FF#11) : isInfinity64 b = false := by
  rw [isInfinity64, beq_false_of_ne h, Bool.false_and]

/-- R17: the exponent of zeros and subnormals is not all ones. -/
theorem exponent64_ne_of_eq_zero {b : DWord} (h : exponent64 b = 0#11) : exponent64 b ≠ 0x7FF#11 := by
  rw [h]
  decide

/-- R17: the two infinities differ in the sign alone. -/
theorem eq_of_isInfinity64 {a b : DWord} (ha : isInfinity64 a = true) (hb : isInfinity64 b = true)
    (hsign : sign64 a = sign64 b) : a = b := by
  obtain ⟨hea, hfa⟩ := (isInfinity64_iff a).1 ha
  obtain ⟨heb, hfb⟩ := (isInfinity64_iff b).1 hb
  have hlow := (extractLsb'_63_eq_iff a b).2 ⟨hea.trans heb.symm, hfa.trans hfb.symm⟩
  exact (eq_iff_sign64_and_extractLsb' a b).2 ⟨hsign, hlow⟩

/-! #### The magnitude determines the exponent and the fraction

The magnitudes of one exponent are all below those of every greater exponent. -/

/-- R17: a bound above every magnitude of an exponent. -/
theorem magnitude64_lt (b : DWord) : magnitude64 b < 2 ^ 52 * 2 ^ (exponent64 b).toNat := by
  have hf : (fraction64 b).toNat < 2 ^ 52 := (fraction64 b).isLt
  rw [magnitude64]
  split
  case isTrue h => rw [h]; exact hf
  case isFalse h =>
    have he : (exponent64 b).toNat ≠ 0 := fun h0 => h (BitVec.eq_of_toNat_eq h0)
    obtain ⟨e, he⟩ := Nat.exists_eq_succ_of_ne_zero he
    rw [he, Nat.succ_sub_one]
    calc (2 ^ 52 + (fraction64 b).toNat) * 2 ^ e
        < (2 ^ 52 * 2) * 2 ^ e := Nat.mul_lt_mul_of_pos_right (by omega) (Nat.two_pow_pos e)
      _ = 2 ^ 52 * 2 ^ (e + 1) := by ring

/-- R17: the bound of every smaller exponent is at or below a magnitude. -/
theorem le_magnitude64 {b : DWord} {e : Nat} (h : e < (exponent64 b).toNat) : 2 ^ 52 * 2 ^ e ≤ magnitude64 b := by
  have h0 : exponent64 b ≠ 0#11 := fun h0 => by simp [h0] at h
  rw [magnitude64, if_neg h0]
  exact Nat.mul_le_mul (Nat.le_add_right _ _) (Nat.pow_le_pow_right (by decide) (by omega))

/-- R17: the greater exponent has the greater magnitude, whatever the fractions. -/
theorem magnitude64_lt_of_exponent64_lt {a b : DWord} (h : (exponent64 a).toNat < (exponent64 b).toNat) :
    magnitude64 a < magnitude64 b :=
  (magnitude64_lt a).trans_le (le_magnitude64 h)

/-- R17: the magnitude determines the exponent. -/
theorem exponent64_eq_of_magnitude64_eq {a b : DWord} (h : magnitude64 a = magnitude64 b) :
    exponent64 a = exponent64 b := by
  apply BitVec.eq_of_toNat_eq
  rcases Nat.lt_trichotomy (exponent64 a).toNat (exponent64 b).toNat with hlt | heq | hlt
  · exact absurd h (magnitude64_lt_of_exponent64_lt hlt).ne
  · exact heq
  · exact absurd h (magnitude64_lt_of_exponent64_lt hlt).ne'

/-- R17: the magnitude determines the fraction. -/
theorem fraction64_eq_of_magnitude64_eq {a b : DWord} (h : magnitude64 a = magnitude64 b) :
    fraction64 a = fraction64 b := by
  have he := exponent64_eq_of_magnitude64_eq h
  apply BitVec.eq_of_toNat_eq
  rw [magnitude64, magnitude64, he] at h
  split at h
  · exact h
  · exact Nat.add_left_cancel (Nat.eq_of_mul_eq_mul_right (Nat.two_pow_pos _) h)

/-- R17: the magnitude determines bits 62:0, and they determine it. -/
theorem magnitude64_eq_iff (a b : DWord) :
    magnitude64 a = magnitude64 b ↔ a.extractLsb' 0 63 = b.extractLsb' 0 63 := by
  rw [extractLsb'_63_eq_iff]
  refine ⟨fun h => ⟨exponent64_eq_of_magnitude64_eq h, fraction64_eq_of_magnitude64_eq h⟩, fun ⟨he, hf⟩ => ?_⟩
  rw [magnitude64, magnitude64, he, hf]

/-- R17: a magnitude of 0 is that of the two zeros. -/
theorem magnitude64_eq_zero_iff (b : DWord) : magnitude64 b = 0 ↔ b.extractLsb' 0 63 = 0#63 :=
  magnitude64_eq_iff b 0#64

/-! #### The number a pattern stands for, and IEEE-754 equality (R132) -/

/-- What `number64` takes for the number of a finite pattern (R17; `number64_of_exponent64_ne`). -/
def signedMagnitude64 (b : DWord) : Int := if sign64 b then -(magnitude64 b : Int) else (magnitude64 b : Int)

/-- R17: of two finite numbers with the same magnitude and different signs, only the zeros are the same. -/
theorem signedMagnitude64_eq_iff (a b : DWord) :
    signedMagnitude64 a = signedMagnitude64 b ↔
      a = b ∨ (a.extractLsb' 0 63 = 0#63 ∧ b.extractLsb' 0 63 = 0#63) := by
  rw [← magnitude64_eq_zero_iff, ← magnitude64_eq_zero_iff, eq_iff_sign64_and_extractLsb', ← magnitude64_eq_iff,
    signedMagnitude64, signedMagnitude64]
  cases sign64 a <;> cases sign64 b <;> simp <;> omega

/-- R17: a NaN stands for no number. -/
theorem number64_eq_nan_iff (b : DWord) : number64 b = .nan ↔ isNan64 b = true := by
  rw [number64]
  split_ifs with hn <;> simp [hn]

/-- R17: what a pattern that is no NaN stands for. -/
theorem number64_of_not_nan {b : DWord} (h : isNan64 b = false) :
    number64 b = if isInfinity64 b then .infinity (sign64 b) else .finite (signedMagnitude64 b) := by
  rw [number64, h]
  rfl

/-- R17: below the exponent of all ones every pattern is a finite number. -/
theorem number64_of_exponent64_ne {b : DWord} (h : exponent64 b ≠ 0x7FF#11) :
    number64 b = .finite (signedMagnitude64 b) := by
  rw [number64_of_not_nan (isNan64_of_exponent64_ne h), isInfinity64_of_exponent64_ne h]
  rfl

/-- R17: both zeros are finite numbers. -/
theorem number64_of_zero {b : DWord} (h : b.extractLsb' 0 63 = 0#63) : number64 b = .finite (signedMagnitude64 b) := by
  obtain ⟨hexp, -⟩ := (extractLsb'_63_eq_iff b 0#64).1 h
  exact number64_of_exponent64_ne (exponent64_ne_of_eq_zero hexp)

/-- R17, R132: no two patterns but the zeros stand for the same number. -/
theorem number64_eq_iff {a b : DWord} (ha : isNan64 a = false) (hb : isNan64 b = false) :
    number64 a = number64 b ↔ a = b ∨ (a.extractLsb' 0 63 = 0#63 ∧ b.extractLsb' 0 63 = 0#63) := by
  constructor
  · intro h
    rw [number64_of_not_nan ha, number64_of_not_nan hb] at h
    split_ifs at h with hia hib
    · exact .inl (eq_of_isInfinity64 hia hib (Number.infinity.inj h))
    · exact (signedMagnitude64_eq_iff a b).1 (Number.finite.inj h)
  · rintro (rfl | ⟨hza, hzb⟩)
    · rfl
    · rw [number64_of_zero hza, number64_of_zero hzb, (signedMagnitude64_eq_iff a b).2 (.inr ⟨hza, hzb⟩)]

/-- R132: FEQ64 holds of two patterns of the same number, and of no NaN. -/
theorem feq64_iff_number64 (a b : DWord) :
    feq64 a b = true ↔ number64 a ≠ .nan ∧ number64 b ≠ .nan ∧ number64 a = number64 b := by
  rw [feq64]
  split
  case h_1 ha => simp [ha]
  case h_2 hb _ => simp [hb]
  case h_3 ha hb =>
    rw [decide_eq_true_eq]
    exact ⟨fun h => ⟨ha, hb, h⟩, fun ⟨_, _, h⟩ => h⟩

/-- R133: a pattern is equal to itself exactly when it is no NaN. -/
theorem feq64_self (v : DWord) : feq64 v v = !isNan64 v := by
  rw [Bool.eq_iff_iff, feq64_iff_number64, Bool.not_eq_true', ← Bool.not_eq_true, ← number64_eq_nan_iff]
  tauto

/-! #### ISNAN by the bits of DIN (R131, R133) -/

/-- R131, R133: ISNAN completes and drives the answer of the bit test on DOUT. -/
theorem exec_isnan (s : State) :
    exec .isnan s = .next (driveDout (if isNan64 s.ports.din then 1#64 else 0#64) s) := by
  refine (exec_isnan_next_iff s _).2 ?_
  rw [dinDouble, feq64_self]
  cases isNan64 s.ports.din <;> rfl

/-- R131: ISNAN answers 0 for a DIN that is no NaN. -/
theorem exec_isnan_of_not_nan {s : State} (h : isNan64 s.ports.din = false) :
    ∃ t, exec .isnan s = .next t ∧ t.dout = 0#64 :=
  ⟨_, exec_isnan s, by rw [h]; rfl⟩

/-- R13, R17: a zero-extended binary32 pattern has a binary64 exponent of 0. -/
theorem exponent64_setWidth (f : Word) : exponent64 (f.setWidth 64) = 0#11 := by
  apply BitVec.eq_of_getLsbD_eq
  intro k hk
  have hf : f.getLsbD (52 + k) = false := BitVec.getLsbD_of_ge f _ (by omega)
  rw [exponent64, BitVec.getLsbD_extractLsb', BitVec.getLsbD_setWidth, hf, Bool.and_false, Bool.and_false,
    BitVec.getLsbD_zero]

/-! #### The obligations of spec/42_nan_test.md -/

/-- Settles O43: FEQ64 compares numbers, and no two patterns but the zeros stand for the same one. -/
theorem equalPatternsOrZeros : Obligations.EqualPatternsOrZeros := by
  unfold Obligations.EqualPatternsOrZeros
  intro a b
  rw [feq64_iff_number64, Ne, Ne, number64_eq_nan_iff, number64_eq_nan_iff, Bool.not_eq_true, Bool.not_eq_true]
  exact and_congr_right fun ha => and_congr_right fun hb => number64_eq_iff ha hb

/-- Settles O42: a pattern differs from itself exactly when it is a NaN. -/
theorem nanBitTestIsSelfInequality : Obligations.NanBitTestIsSelfInequality := by
  unfold Obligations.NanBitTestIsSelfInequality
  intro v
  rw [feq64_self, Bool.not_not, isNan64, exponent64, fraction64]

/-- Settles O41: ISNAN drives the answer of the bit test. -/
theorem isnanAnswersNanBits : Obligations.IsnanAnswersNanBits := by
  unfold Obligations.IsnanAnswersNanBits
  rintro s d rfl
  simp only [exec_isnan, isNan64_iff]
  rfl

/-- Settles O44: the answer is a function of DIN; a subnormal pattern has an exponent of 0. -/
theorem isnanDependsOnlyOnDin : Obligations.IsnanDependsOnlyOnDin := by
  unfold Obligations.IsnanDependsOnlyOnDin
  constructor
  · intro s s' hd
    exact ⟨_, ⟨_, exec_isnan s, rfl⟩, ⟨_, exec_isnan s', by rw [hd]; rfl⟩⟩
  · intro s hexp _
    exact exec_isnan_of_not_nan (isNan64_of_exponent64_ne (exponent64_ne_of_eq_zero hexp))

/-- Settles O45: the exponent lies in the upper half, which is 0. -/
theorem lowHalfBinary32IsNoNan : Obligations.LowHalfBinary32IsNoNan := by
  unfold Obligations.LowHalfBinary32IsNoNan
  intro s f hd
  have hexp : exponent64 s.ports.din = 0#11 := by rw [hd, exponent64_setWidth]
  exact exec_isnan_of_not_nan (isNan64_of_exponent64_ne (exponent64_ne_of_eq_zero hexp))

end Sys2Proof.Machine

/-! ### Faults

What a command or an edge that faults leaves, what SEXT and the lane reads answer when they fault, and the obligations
of spec/60_exceptions.md. -/

namespace Sys2Proof.Machine

/-! #### The state that a faulting command leaves (R141) -/

/-- R43, R141: every command ends in the shared way, so its fault is raised from the state before it. -/
theorem exec_eq_finishCommand (i : Instr) (s : State) : ∃ e, exec i s = finishCommand s e := by
  cases i with
  | sext w => exact ⟨_, rfl⟩
  | ldd i => exact ⟨_, rfl⟩
  | svd i => exact ⟨_, rfl⟩
  | ldf i => exact ⟨_, rfl⟩
  | svf i => exact ⟨_, rfl⟩
  | isnan => exact ⟨.ok _, rfl⟩

/-- R43, R141: a command that faults leaves the state before it, with the mark set. -/
theorem exec_fault {i : Instr} {s : State} {f : Fault} (h : exec i s = .fault f) :
    ∃ r, f = toFault r (afterCommandFault r s) := by
  obtain ⟨e, he⟩ := exec_eq_finishCommand i s
  obtain ⟨r, -, hf⟩ := (finishCommand_fault_iff s e f).1 (he.symm.trans h)
  exact ⟨r, hf⟩

/-- R141, R143: an edge that takes a word and faults leaves the state before it, with the mark set, whether the word
decodes to a command or not. -/
theorem commandEdge_fault {s : State} {f : Fault} (h : commandEdge s = .fault f) :
    ∃ r, f = toFault r (afterCommandFault r s) := by
  cases hd : decode s.ports.cmd with
  | ok i => exact exec_fault ((commandEdge_of_decode_ok hd).symm.trans h)
  | error _ =>
    rw [commandEdge_of_decode_error hd, Host.Outcome.fault.injEq] at h
    exact ⟨.illegalCommand s.ports.cmd, h.symm⟩

/-- R141, R160, R167: an edge that faults took a word from its own ports; a reset or idle edge does not fault. -/
theorem clockEdge_fault {p : Ports} {s : State} {f : Fault} (h : clockEdge p s = .fault f) :
    ∃ r, f = toFault r (afterCommandFault r { s with ports := p }) := by
  rw [clockEdge] at h
  split at h
  · cases h
  · split at h
    · cases h
    · exact commandEdge_fault h

/-! #### What a fault of SEXT, LDF and HostRead answers -/

/-- R144, R141: SEXT faults exactly for widths 0 and above 32. -/
theorem exec_sext_fault_iff (w : Nat) (s : State) (f : Fault) :
    exec (.sext w) s = .fault f ↔ (w = 0 ∨ 32 < w) ∧ f = .badWidth w (afterCommandFault (.badWidth w) s) := by
  rw [exec, execSext, finishCommand_fault_iff]
  by_cases hw : w = 0 ∨ 32 < w
  · rw [if_pos hw, and_iff_right hw]
    simp only [Except.error.injEq, exists_eq_left', toFault]
  · rw [if_neg hw]
    simp only [hw, false_and, reduceCtorEq, exists_false]

/-- R112, R141: LDF faults for the reason its lane read does, and leaves the lanes. -/
theorem exec_ldf_of_laneRead_error {i : Nat} {s : State} {r : FaultReason} (h : laneRead i s = .error r) :
    ∃ t, exec (.ldf i) s = .fault (toFault r t) ∧ t.rbf = s.rbf :=
  ⟨_, (exec_ldf_fault_iff i s _).2 ⟨r, h, rfl⟩, afterCommandFault_rbf r s⟩

/-- R47, R141: HostRead faults for the reason its lane read does, and leaves the lanes. -/
theorem hostRead_of_laneRead_error {l : Nat} {s : State} {r : FaultReason} (h : laneRead l s = .error r) :
    ∃ t, hostRead l s = .fault (toFault r t) ∧ t.rbf = s.rbf :=
  ⟨_, (hostRead_fault_iff l s _).2 ⟨r, h, rfl⟩, afterOwnerFault_rbf r s⟩

/-! #### The obligations of spec/60_exceptions.md -/

/-- Settles O16: the fault was raised from the state before the command, with the ports of the edge. -/
theorem faultingCommandMarksAndLeavesLanes : Obligations.FaultingCommandMarksAndLeavesLanes := by
  unfold Obligations.FaultingCommandMarksAndLeavesLanes
  intro s p rest f hm hi h
  rw [step_of_inputs s _ rest hm hi] at h
  obtain ⟨r, rfl⟩ := clockEdge_fault h
  rw [faultState_toFault]
  exact ⟨rfl, rfl, rfl, r, rfl, rfl⟩

/-- Settles O32: each double or single lane access checks its lanes, and the fault leaves the bank before it. -/
theorem badIndexRaised : Obligations.BadIndexRaised := by
  unfold Obligations.BadIndexRaised
  refine ⟨twoLaneCommandsCheckRangeFirst, fun i s h => ?_, fun l v s h => ?_⟩
  · have hread := (laneRead_error_iff i _ s).2 (.inl ⟨h, rfl⟩)
    exact ⟨exec_ldf_of_laneRead_error hread, _, (exec_svf_fault_iff i s _).2 ⟨h, rfl⟩, rfl⟩
  · have hread := (laneRead_error_iff l _ s).2 (.inl ⟨h, rfl⟩)
    exact ⟨hostRead_of_laneRead_error hread, _, (hostWrite_fault_iff l v s _).2 ⟨h, rfl⟩, rfl⟩

/-- Settles O33: LDD reads its lower lane first; LDF and HostRead are one lane read. -/
theorem unwrittenLaneRaised : Obligations.UnwrittenLaneRaised := by
  unfold Obligations.UnwrittenLaneRaised
  refine ⟨fun i s h hlo => ?_, fun i s lo hlo hhi => ?_, fun i s hv => ?_, fun l s hv => ?_⟩
  · obtain ⟨-, hlow, -⟩ := lddFaultPriority i s
    exact hlow h hlo
  · obtain ⟨-, -, hhigh⟩ := lddFaultPriority i s
    exact hhigh lo hlo hhi
  · exact exec_ldf_of_laneRead_error ((laneRead_error_iff i _ s).2 (.inr ⟨hv, rfl⟩))
  · exact hostRead_of_laneRead_error ((laneRead_error_iff l _ s).2 (.inr ⟨hv, rfl⟩))

/-- Settles O11: an edge without a request only samples its ports and clears DOUT. -/
theorem idleEdgeClearsDout : Obligations.IdleEdgeClearsDout := by
  unfold Obligations.IdleEdgeClearsDout
  intro s p rest hm hi _ hq
  rw [step_of_inputs s _ rest hm hi]
  exact (clockEdge_next_iff p _ _).2 (.inl ⟨.inr hq, rfl⟩)

/-- Settles O13: a step looks at the fault mark before it takes an input. -/
theorem noStepAfterFault : Obligations.NoStepAfterFault := by
  unfold Obligations.NoStepAfterFault
  intro s m hm
  rw [step, nextStep, hm]

/-- Settles O15: the code and the value of each reason. -/
theorem faultCodesAndValues : Obligations.FaultCodesAndValues := by
  unfold Obligations.FaultCodesAndValues
  exact ⟨fun _ => ⟨rfl, rfl⟩, fun _ => ⟨rfl, rfl⟩, fun _ => ⟨rfl, rfl⟩, fun _ => ⟨rfl, rfl⟩⟩

/-- Settles O24: SEXT faults for exactly these widths, and from the state before it. -/
theorem sextBadWidth : Obligations.SextBadWidth := by
  unfold Obligations.SextBadWidth
  intro w s
  constructor
  · constructor
    · rintro ⟨t, h⟩
      exact ((exec_sext_fault_iff w s _).1 h).1
    · intro hw
      exact ⟨_, (exec_sext_fault_iff w s _).2 ⟨hw, rfl⟩⟩
  · intro f h
    obtain ⟨-, rfl⟩ := (exec_sext_fault_iff w s f).1 h
    rfl

end Sys2Proof.Machine

/-! ### Reset, and what a run observes

What each step of a run adds to the observation, which steps a run has performed, and the obligations of
spec/70_reset_and_hazards.md. -/

namespace Sys2Proof.Machine

open Safety

/-! #### What one step observes (R162) -/

/-- R160, R167: an edge in reset or without a request does not observe its DOUT. -/
theorem observedBy_edge_of_no_command {p : Ports} (u v : State) (h : p.rstN = false ∨ p.req = false) :
    observedBy (.edge p) u v = [] := by
  rcases h with h | h <;> simp [observedBy, h]

/-- R162: an edge that takes a command observes the DOUT that the command leaves. -/
theorem observedBy_edge_of_request {p : Ports} (u v : State) (hr : p.rstN = true) (hq : p.req = true) :
    observedBy (.edge p) u v = [.dout v.dout] := by
  simp [observedBy, hr, hq]

/-- R162: a HostRead observes the value that its lane holds. -/
theorem observedBy_hostRead_of_lane {l : Nat} {x : Word} {u : State} (v : State)
    (hx : u.rbf[l]? = some (some x)) : observedBy (.hostRead l) u v = [.lane l x] := by
  simp [observedBy, hx]

/-- R162: a step of a run that completes appends what it observes. -/
theorem observed_of_takeEvent_next {e : Event} {s t : State} (h : takeEvent e s = .next t) :
    t.observed = s.observed ++ observedBy e s t := by
  cases e with
  | edge p =>
    obtain ⟨hp, rfl⟩ | ⟨hr, hq, i, -, hx⟩ := (clockEdge_next_iff p s t).1 h
    · rw [observedBy_edge_of_no_command _ _ hp, List.append_nil, clearDout_observed]
    · rw [observedBy_edge_of_request _ _ hr hq, eq_driveDout_of_exec_next i _ t hx, driveDout_observed,
        driveDout_dout]
  | hostRead l =>
    obtain ⟨x, hx, rfl⟩ := (hostRead_next_iff l s t).1 h
    rw [observedBy_hostRead_of_lane _ hx, observeLane_observed]
  | hostWrite l v =>
    obtain ⟨-, rfl⟩ := (hostWrite_next_iff l v s t).1 h
    rw [observedBy, List.append_nil, setLane_observed]

/-- R162: a step that completes observes one entry if it is a command or a HostRead, and none otherwise. -/
theorem length_observedBy_of_takeEvent_next {e : Event} {s t : State} (h : takeEvent e s = .next t) :
    (observedBy e s t).length = ([e].filter eventObserved).length := by
  cases e with
  | edge p =>
    rw [observedBy, List.filter_singleton, eventObserved]
    cases p.rstN && p.req <;> rfl
  | hostRead l =>
    obtain ⟨x, hx, -⟩ := (hostRead_next_iff l s t).1 h
    rw [observedBy_hostRead_of_lane t hx]
    rfl
  | hostWrite l v => rfl

/-- R162: the step that takes the input `e` appends what `e` observes. -/
theorem observed_of_step_next {s t : State} {e : Event} {rest : List Event} (hi : s.inputs = e :: rest)
    (h : step s = .next t) : t.observed = s.observed ++ observedBy e s t := by
  rw [step_of_inputs s e rest (faultMark_of_step_next s t h) hi] at h
  exact observed_of_takeEvent_next (s := { s with inputs := rest }) h

/-- R162: a step that completes adds one entry for a command or a HostRead; without an input it is an idle edge and adds
none. -/
theorem length_observed_of_step_next {s t : State} (h : step s = .next t) :
    t.observed.length = s.observed.length + ((s.inputs.take 1).filter eventObserved).length := by
  obtain ⟨-, ⟨hi, rfl⟩ | ⟨e, rest, hi, he⟩⟩ := (step_next_iff s t).1 h
  · rw [hi]
    rfl
  · rw [observed_of_takeEvent_next he, List.length_append, length_observedBy_of_takeEvent_next he, hi]
    rfl

/-- R162: a step that completes consumes the next input, if there is one. -/
theorem inputs_of_step_next {s t : State} (h : step s = .next t) : t.inputs = s.inputs.drop 1 := by
  obtain ⟨-, ⟨hi, rfl⟩ | ⟨e, rest, hi, he⟩⟩ := (step_next_iff s t).1 h
  · rw [clearDout_inputs, hi, List.drop_nil]
  · rw [inputs_of_takeEvent_next e _ t he, hi]
    rfl

/-! #### What a run has performed and observed -/

/-- R162: `k` steps that complete consume the next `k` inputs. -/
theorem inputs_of_run_next {k : Nat} {s u : State} (h : Host.Core.run core k s = .next u) :
    u.inputs = s.inputs.drop k := by
  induction k generalizing s with
  | zero =>
    cases (h : (Host.Outcome.next s : Result) = .next u)
    rfl
  | succ k ih =>
    obtain ⟨t, hst, htu⟩ := (run_succ_next_iff k s u).1 h
    rw [ih htu, inputs_of_step_next hst, List.drop_drop, Nat.add_comm]

/-- R162: a run that completes has one entry more for each command and HostRead among the inputs it consumed. -/
theorem length_observed_of_run_next {k : Nat} {s u : State} (h : Host.Core.run core k s = .next u) :
    u.observed.length = s.observed.length + ((s.inputs.take k).filter eventObserved).length := by
  induction k generalizing s with
  | zero =>
    cases (h : (Host.Outcome.next s : Result) = .next u)
    rfl
  | succ k ih =>
    obtain ⟨t, hst, htu⟩ := (run_succ_next_iff k s u).1 h
    rw [ih htu, length_observed_of_step_next hst, inputs_of_step_next hst, Nat.add_comm k, List.take_add,
      List.filter_append, List.length_append, Nat.add_assoc]

/-- A run of `j + k` steps is a run of `j` steps and then one of `k`. -/
theorem run_add_next_iff (j k : Nat) (s u : State) :
    Host.Core.run core (j + k) s = .next u ↔
      ∃ t, Host.Core.run core j s = .next t ∧ Host.Core.run core k t = .next u := by
  induction j generalizing s with
  | zero =>
    rw [Nat.zero_add]
    constructor
    · exact fun h => ⟨s, rfl, h⟩
    · rintro ⟨t, hst, htu⟩
      cases (hst : (Host.Outcome.next s : Result) = .next t)
      exact htu
  | succ j ih =>
    rw [Nat.succ_add, run_succ_next_iff]
    constructor
    · rintro ⟨s', hs, hrun⟩
      obtain ⟨t, hst, htu⟩ := (ih s').1 hrun
      exact ⟨t, (run_succ_next_iff j s t).2 ⟨s', hs, hst⟩, htu⟩
    · rintro ⟨t, hst, htu⟩
      obtain ⟨s', hs, hrun⟩ := (run_succ_next_iff j s t).1 hst
      exact ⟨s', hs, (ih s').2 ⟨t, hrun, htu⟩⟩

/-- A run that completes has passed through a state after each number of steps, and that state had a next one. -/
theorem exists_step_of_run_next {n k : Nat} {s t : State} (h : Host.Core.run core n s = .next t) (hk : k < n) :
    ∃ u v, Host.Core.run core k s = .next u ∧ step u = .next v ∧ Host.Core.run core (k + 1) s = .next v := by
  obtain ⟨m, rfl⟩ := Nat.exists_eq_add_of_lt hk
  obtain ⟨u, hsu, hut⟩ := (run_add_next_iff k (m + 1) s t).1 h
  obtain ⟨v, huv, -⟩ := (run_succ_next_iff m u t).1 hut
  exact ⟨u, v, hsu, huv, (run_add_next_iff k 1 s v).2 ⟨u, hsu, (run_succ_next_iff 0 u v).2 ⟨v, huv, rfl⟩⟩⟩

/-- R141: a run that completes leaves the fault mark as it was. -/
theorem faultMark_of_run_next {k : Nat} {s u : State} (h : Host.Core.run core k s = .next u) :
    u.faultMark = s.faultMark :=
  run_induction (fun s t => t.faultMark = s.faultMark) (fun _ => rfl) (fun _ _ _ hst htu => htu.trans hst)
    (fun s t hst => (sameForm_of_step_next s t hst).2) k s u h

/-! #### The duties of the caller (R163, R165) -/

/-- No command is refused: each ends in the shared way. -/
theorem exec_not_refused (i : Instr) (s : State) (r : Refusal) : exec i s ≠ .refused r := by
  obtain ⟨e, he⟩ := exec_eq_finishCommand i s
  exact he ▸ finishCommand_not_refused s e r

/-- The duties for a step speak of the bank only, not of the steps that are still to come. -/
theorem eventReady_inputs (es : List Event) (s : State) (e : Event) :
    eventReady { s with inputs := es } e = eventReady s e := by
  cases e <;> rfl

/-! #### The obligations of spec/70_reset_and_hazards.md -/

/-- Settles O57: a run from a launch consumes its events in order, and each step appends what its event observes. -/
theorem runObservesEveryCommandAndRead : Obligations.RunObservesEveryCommandAndRead := by
  unfold Obligations.RunObservesEveryCommandAndRead
  intro bank events t h
  refine ⟨?_, faultMark_of_run_next h, ?_, fun k e hk => ?_⟩
  · rw [inputs_of_run_next h, launch_inputs, List.drop_length]
  · rw [length_observed_of_run_next h, launch_observed, launch_inputs, List.take_length, List.length_nil,
      Nat.zero_add]
  · obtain ⟨hlt, rfl⟩ := List.getElem?_eq_some_iff.1 hk
    obtain ⟨u, v, hu, huv, hv⟩ := exists_step_of_run_next h hlt
    have hinputs : u.inputs = events[k] :: events.drop (k + 1) :=
      (inputs_of_run_next hu).trans (List.drop_eq_getElem_cons hlt)
    exact ⟨u, v, hu, hv, observed_of_step_next hinputs huv⟩

/-- Settles O47: a command completes exactly when its duties are kept, and no command is refused. -/
theorem commandCompletesIffReady : Obligations.CommandCompletesIffReady := by
  unfold Obligations.CommandCompletesIffReady
  exact fun i s => ⟨exec_completes_iff i s, exec_not_refused i s⟩

/-- Settles O53: a step takes the next input, and that completes exactly when its duties are kept. -/
theorem stepCompletesIffReady : Obligations.StepCompletesIffReady := by
  unfold Obligations.StepCompletesIffReady
  intro s e rest hm hi
  rw [step_of_inputs s e rest hm hi, takeEvent_completes_iff, eventReady_inputs]

/-- Settles O10: an edge in reset only samples its ports and clears DOUT. -/
theorem resetEdgeTakesNoCommand : Obligations.ResetEdgeTakesNoCommand := by
  unfold Obligations.ResetEdgeTakesNoCommand
  intro s p rest hm hi hr
  rw [step_of_inputs s _ rest hm hi]
  exact (clockEdge_next_iff p _ _).2 (.inl ⟨.inl hr, rfl⟩)

end Sys2Proof.Machine

/-! ### The run with no input left (log entry 7) -/

namespace Sys2Proof.Machine

/-- Settles O12: with no input left, the edge has no request, so it only lowers REQ and clears DOUT. -/
theorem exhaustedInputIsIdle : Obligations.ExhaustedInputIsIdle := by
  unfold Obligations.ExhaustedInputIsIdle
  exact step_of_no_inputs

end Sys2Proof.Machine
